-- ==== Sys2Proof/Word.lean ====
section
/-! DEFINITION. The bit widths of the block: a byte of a frame or response (R31, R35), a 16-bit parameter (R34),
a 32-bit register-bus word (R38). -/

namespace Sys2Proof

/-- One byte of a frame, of a response or of a bus word (`u8`). -/
abbrev Byte := BitVec 8

/-- A pulse parameter in microseconds (`u16`). -/
abbrev U16 := BitVec 16

/-- A register-bus data word (`u32`). -/
abbrev U32 := BitVec 32

end Sys2Proof
end

