-- ==== Sys2Proof/Config.lean ====
section
/-! DEFINITION. What an implementation fixes and what the outside world leaves free: the named constants of
00_scope.md R8, the parameters of R7, the input ports of 10_state.md R20, and the free value of the inputs. -/

namespace Sys2Proof.Config

/-! ## The constants of R8 (log 18) -/

/-- Bytes in a frame (R8, R70). -/
def FRAME_LEN : Nat := 9
/-- Start of message (R8, R71). -/
def SOM : Byte := 0xC9#8
/-- The only accepted LEN byte (R8, R78). -/
def LEN_VAL : Byte := 0x05#8
/-- The only defined command (R8, R75). -/
def CMD_SET : Byte := 0x01#8
/-- End of message (R8, R71). -/
def EOM : Byte := 0xCE#8
/-- The response to an accepted frame (R8, R73). -/
def ACK_SUCCESS : Byte := 0xA1#8
/-- The response to a bad byte 0 (R8, R73). -/
def ERR_START_OF_MESSAGE : Byte := 0xE1#8
/-- The response to a bad byte 1 (R8, R73). -/
def ERR_MESSAGE_LENGTH : Byte := 0xE2#8
/-- The response to a bad byte 2 (R8, R73). -/
def ERR_COMMAND_CODE : Byte := 0xE3#8
/-- The response to a bad byte 7 (R8, R73). -/
def ERR_CHECKSUM : Byte := 0xE4#8
/-- The response to a bad byte 8 (R8, R73). -/
def ERR_END_OF_MESSAGE : Byte := 0xE5#8
/-- The multiplier applied to PRI and PW (R8, R91). -/
def SCALE : Nat := 100
/-- Added to the scaled PW in REG2 (R8, R91). -/
def REG2_ADD : Nat := 200
/-- The constant written to REG3 (R8, R91). -/
def REG3_VAL : Nat := 100
/-- Added to the scaled PW in REG5 (R8, R91). -/
def REG5_ADD : Nat := 100
/-- Offset of REG2 from WAVE_BASE (R8, R38). -/
def OFF_REG2 : Nat := 0x04
/-- Offset of REG3 from WAVE_BASE (R8, R38). -/
def OFF_REG3 : Nat := 0x08
/-- Offset of REG4 from WAVE_BASE (R8, R38). -/
def OFF_REG4 : Nat := 0x0C
/-- Offset of REG5 from WAVE_BASE (R8, R38). -/
def OFF_REG5 : Nat := 0x10
/-- The cold-start PRI (R8, R99). -/
def DEFAULT_PRI : U16 := 500#16
/-- The cold-start PW (R8, R99). -/
def DEFAULT_PW : U16 := 2#16
/-- First frame index the checksum covers (R8, R111). -/
def CHK_FIRST : Nat := 2
/-- Last frame index the checksum covers (R8, R111). -/
def CHK_LAST : Nat := 5
/-- Least settle delay in seconds (R8, R147). -/
def SETTLE_SECONDS : Nat := 1

/-! ## The parameters of R7 -/

/-- The four implementation parameters of R7. Their constraints are `Params.wf` (WellFormed.lean). -/
structure Params where
  /-- `CLK_HZ`, OPEN. -/
  clkHz : Nat
  /-- `SETTLE_CYCLES`, default `CLK_HZ`. -/
  settleCycles : Nat
  /-- `ADDR_W`, default 32. -/
  addrW : Nat
  /-- `WAVE_BASE`, OPEN. -/
  waveBase : Nat
deriving DecidableEq, Repr

/-- R7's defaults for given values of the two OPEN parameters: SETTLE_CYCLES is CLK_HZ, ADDR_W is 32. -/
def Params.ofOpen (clkHz waveBase : Nat) : Params :=
  { clkHz := clkHz, settleCycles := clkHz * SETTLE_SECONDS, addrW := 32, waveBase := waveBase }

/-- The parameters State.reset carries. DESIGN CHOICE (log 5), unsafe if a claim leaned on it, and none does:
R7 gives CLK_HZ and WAVE_BASE no default. CLK_HZ is that of the spec's own timed vectors (95_test_vectors.md section 2.5),
WAVE_BASE is zero, the others are R7's defaults. -/
def reference : Params := Params.ofOpen 3 0

/-! ## The input ports of R20 -/

/-- The value of every input port in one clock cycle (R20). `clk` itself is the step. -/
structure Inputs where
  rst     : Bool
  rxValid : Bool
  rxData  : Byte
  txReady : Bool
  wrReady : Bool
  linkUp  : Bool
  linkErr : Bool
deriving DecidableEq, Repr, Inhabited

/-- The inputs of cycle `n` where the state lists none. R23: "may take any value" in any cycle, so this is a free
value (log 4, safe): it has no body and nothing can be proved of it. -/
opaque freeInputs : Nat → Inputs

end Sys2Proof.Config
end

