-- ==== Sys2Proof/Syntax.lean ====
section
/-! DEFINITION. The encoded items of the block, one constructor per row of spec/opcode_table.json (R1: its
"instructions" are the one frame command, the six response bytes and the four register writes). -/

namespace Sys2Proof

/-- One row of the opcode table each. -/
inductive Instr where
  /-- The set-parameters frame (R75, R119): its operands PRI and PW and its checksum byte K. -/
  | setp (pri pw : U16) (chk : Byte)
  /-- The write of REG2 (R93). -/
  | wrReg2
  /-- The write of REG3 (R94). -/
  | wrReg3
  /-- The write of REG4 (R95). -/
  | wrReg4
  /-- The write of REG5 (R96). -/
  | wrReg5
  /-- The response 0xA1 (R73, R134). -/
  | ackSuccess
  /-- The rejection and response 0xE1 (R114). -/
  | errStartOfMessage
  /-- The rejection and response 0xE5 (R115). -/
  | errEndOfMessage
  /-- The rejection and response 0xE2 (R116). -/
  | errMessageLength
  /-- The rejection and response 0xE3 (R117). -/
  | errCommandCode
  /-- The rejection and response 0xE4 (R118). -/
  | errChecksum
deriving DecidableEq, Repr

end Sys2Proof
end

