-- ==== Sys2Proof/Decode.lean ====
section
/-! DEFINITION. The packet codec and the encodings: frame layout (R71), operand assembly (R72), checksum (R111), the five
checks in their order (R110, R113), the response codes (R73) and the register-bus offsets (R74); then the encoder,
written from the same tables. -/

namespace Sys2Proof

/-! ## Frames -/

/-- The nine bytes of a frame under their wire names, byte 0 first (R71). -/
structure Frame where
  som   : Byte
  len   : Byte
  cmd   : Byte
  pwHi  : Byte
  pwLo  : Byte
  priHi : Byte
  priLo : Byte
  chk   : Byte
  eom   : Byte
deriving DecidableEq, Repr

/-- The bytes in arrival order, byte `i` at index `i` (R9, R71). -/
def Frame.toBytes (f : Frame) : List Byte :=
  [f.som, f.len, f.cmd, f.pwHi, f.pwLo, f.priHi, f.priLo, f.chk, f.eom]

/-- Nine bytes make a frame, no other number does (R78). -/
def Frame.ofBytes : List Byte → Option Frame
  | [b0, b1, b2, b3, b4, b5, b6, b7, b8] => some ⟨b0, b1, b2, b3, b4, b5, b6, b7, b8⟩
  | _ => none

/-- `buf[i] <- b` (R130). An index above 8 names no register (log 8). -/
def Frame.set (f : Frame) (i : Nat) (b : Byte) : Frame :=
  match i with
  | 0 => { f with som := b }
  | 1 => { f with len := b }
  | 2 => { f with cmd := b }
  | 3 => { f with pwHi := b }
  | 4 => { f with pwLo := b }
  | 5 => { f with priHi := b }
  | 6 => { f with priLo := b }
  | 7 => { f with chk := b }
  | 8 => { f with eom := b }
  | _ => f

/-- `{hi, lo}`, the big-endian pair of R53 and R72. -/
def u16OfBytes (hi lo : Byte) : U16 := hi ++ lo

/-- Bits 15:8. -/
def hiByte (v : U16) : Byte := v.extractLsb' 8 8

/-- Bits 7:0. -/
def loByte (v : U16) : Byte := v.extractLsb' 0 8

/-- `pw_us = {buf[3], buf[4]}` (R72). -/
def Frame.pw (f : Frame) : U16 := u16OfBytes f.pwHi f.pwLo

/-- `pri_us = {buf[5], buf[6]}` (R72). -/
def Frame.pri (f : Frame) : U16 := u16OfBytes f.priHi f.priLo

/-- The exclusive-or of frame bytes CHK_FIRST to CHK_LAST (R111). -/
def checksum (f : Frame) : Byte :=
  ((f.toBytes.drop Config.CHK_FIRST).take (Config.CHK_LAST + 1 - Config.CHK_FIRST)).foldl (· ^^^ ·) 0#8

/-! ## The verdict -/

/-- The five ways a frame is rejected (R170). -/
inductive Reject where
  | startOfMessage
  | endOfMessage
  | messageLength
  | commandCode
  | checksum
deriving DecidableEq, Repr

/-- The response code of a rejection (R73). -/
def Reject.code : Reject → Byte
  | .startOfMessage => Config.ERR_START_OF_MESSAGE
  | .endOfMessage   => Config.ERR_END_OF_MESSAGE
  | .messageLength  => Config.ERR_MESSAGE_LENGTH
  | .commandCode    => Config.ERR_COMMAND_CODE
  | .checksum       => Config.ERR_CHECKSUM

/-- `Accepted(pri, pw) | Rejected(kind)` (R11, R40). -/
inductive Verdict where
  | accepted (pri pw : U16)
  | rejected (kind : Reject)
deriving DecidableEq, Repr

/-- R113: the checks SOM, EOM, LEN, CMD, CHK, the first that fails deciding. -/
def verdict (f : Frame) : Verdict :=
  if f.som ≠ Config.SOM then .rejected .startOfMessage
  else if f.eom ≠ Config.EOM then .rejected .endOfMessage
  else if f.len ≠ Config.LEN_VAL then .rejected .messageLength
  else if f.cmd ≠ Config.CMD_SET then .rejected .commandCode
  else if checksum f ≠ f.chk then .rejected .checksum
  else .accepted f.pri f.pw

/-- The row of the opcode table that names a rejection (R170). -/
def Reject.instr : Reject → Instr
  | .startOfMessage => .errStartOfMessage
  | .endOfMessage   => .errEndOfMessage
  | .messageLength  => .errMessageLength
  | .commandCode    => .errCommandCode
  | .checksum       => .errChecksum

/-! ## Decoding -/

/-- R76: every frame is SETP with its operands or one of the five rejections (log 14 on the count). -/
def decodeFrame (f : Frame) : Instr :=
  match verdict f with
  | .accepted pri pw => .setp pri pw f.chk
  | .rejected k => k.instr

/-- R73: the six response bytes, and no other. -/
def decodeResp (b : Byte) : Option Instr :=
  if b = Config.ACK_SUCCESS then some .ackSuccess
  else if b = Config.ERR_START_OF_MESSAGE then some .errStartOfMessage
  else if b = Config.ERR_MESSAGE_LENGTH then some .errMessageLength
  else if b = Config.ERR_COMMAND_CODE then some .errCommandCode
  else if b = Config.ERR_CHECKSUM then some .errChecksum
  else if b = Config.ERR_END_OF_MESSAGE then some .errEndOfMessage
  else none

/-- R74: the four offsets from WAVE_BASE, and no other. -/
def decodeRegbus (off : Nat) : Option Instr :=
  if off = Config.OFF_REG2 then some .wrReg2
  else if off = Config.OFF_REG3 then some .wrReg3
  else if off = Config.OFF_REG4 then some .wrReg4
  else if off = Config.OFF_REG5 then some .wrReg5
  else none

/-- The three encoded formats "and no others" (R70). -/
inductive Format where
  | frame
  | resp
  | regbus
deriving DecidableEq, Repr

/-- Why bytes spell nothing in a format. -/
inductive DecodeError where
  /-- The format has one fixed length (R70) and these bytes have another. -/
  | wrongLength
  /-- A response byte outside the six codes of R73. -/
  | notAResponse
  /-- An offset outside the four of R74. -/
  | notAnOffset
deriving DecidableEq, Repr

/-- How many bytes each format has (R70): a frame nine, a response one, a bus offset one (its five bits in a byte). -/
def Format.length : Format → Nat
  | .frame  => Config.FRAME_LEN
  | .resp   => 1
  | .regbus => 1

/-- Total on any bytes of any format, rejecting by name. -/
def decode : Format → List Byte → Except DecodeError Instr
  | .frame, bs =>
    match Frame.ofBytes bs with
    | some f => .ok (decodeFrame f)
    | none => .error .wrongLength
  | .resp, [b] =>
    match decodeResp b with
    | some i => .ok i
    | none => .error .notAResponse
  | .regbus, [b] =>
    match decodeRegbus b.toNat with
    | some i => .ok i
    | none => .error .notAnOffset
  | .resp, _ => .error .wrongLength
  | .regbus, _ => .error .wrongLength

/-- The nine bytes of the 72-bit number F of R71: byte `i` is `F[71−8i : 64−8i]`. -/
def frameBytesOfWord (w : Nat) : List Byte :=
  (List.range Config.FRAME_LEN).map fun i => BitVec.ofNat 8 (w >>> (8 * (Config.FRAME_LEN - 1 - i)))

/-- An instruction's bits as spec/opcode_table.json numbers them (log 10): 72 bits are R71's F, whose most significant
byte is byte 0; 8 bits are a response code or a register-bus offset, which share no value. -/
def decodeTableWord (nbits w : Nat) : Option Instr :=
  if nbits = 8 * Config.FRAME_LEN then (decode .frame (frameBytesOfWord w)).toOption
  else if nbits = 8 then
    match decode .resp [BitVec.ofNat 8 w] with
    | .ok i => some i
    | .error _ => (decode .regbus [BitVec.ofNat 8 w]).toOption
  else none

/-! ## Encoding -/

/-- The frame with operands `(pri, pw)` and checksum byte `chk` (R71, R80). -/
def setpFrame (pri pw : U16) (chk : Byte) : Frame :=
  { som := Config.SOM, len := Config.LEN_VAL, cmd := Config.CMD_SET
    pwHi := hiByte pw, pwLo := loByte pw, priHi := hiByte pri, priLo := loByte pri
    chk := chk, eom := Config.EOM }

/-- The checksum byte of `SETP pri=P, pw=W` (R75, R80): R111's checksum of that frame, in which byte 7 takes no part. -/
def setpChecksum (pri pw : U16) : Byte := checksum (setpFrame pri pw 0#8)

/-- The sequencer index that selects a register write (R74, R93 to R96). -/
def Instr.wrIndex? : Instr → Option (BitVec 2)
  | .setp _ _ _         => none
  | .wrReg2             => some 0#2
  | .wrReg3             => some 1#2
  | .wrReg4             => some 2#2
  | .wrReg5             => some 3#2
  | .ackSuccess         => none
  | .errStartOfMessage  => none
  | .errEndOfMessage    => none
  | .errMessageLength   => none
  | .errCommandCode     => none
  | .errChecksum        => none

/-- The format each row of the table is encoded in. -/
def Instr.format : Instr → Format
  | .setp _ _ _         => .frame
  | .wrReg2             => .regbus
  | .wrReg3             => .regbus
  | .wrReg4             => .regbus
  | .wrReg5             => .regbus
  | .ackSuccess         => .resp
  | .errStartOfMessage  => .resp
  | .errEndOfMessage    => .resp
  | .errMessageLength   => .resp
  | .errCommandCode     => .resp
  | .errChecksum        => .resp

/-- The bytes of an instruction in its format. -/
def encode : Instr → List Byte
  | .setp pri pw chk    => (setpFrame pri pw chk).toBytes
  | .wrReg2             => [BitVec.ofNat 8 Config.OFF_REG2]
  | .wrReg3             => [BitVec.ofNat 8 Config.OFF_REG3]
  | .wrReg4             => [BitVec.ofNat 8 Config.OFF_REG4]
  | .wrReg5             => [BitVec.ofNat 8 Config.OFF_REG5]
  | .ackSuccess         => [Config.ACK_SUCCESS]
  | .errStartOfMessage  => [Config.ERR_START_OF_MESSAGE]
  | .errEndOfMessage    => [Config.ERR_END_OF_MESSAGE]
  | .errMessageLength   => [Config.ERR_MESSAGE_LENGTH]
  | .errCommandCode     => [Config.ERR_COMMAND_CODE]
  | .errChecksum        => [Config.ERR_CHECKSUM]

end Sys2Proof
end

