-- ==== Sys2Proof/Machine/State.lean ====
section
/-! DEFINITION. The machine's state as plain data: the block's registers (R21, R29 to R37), the register bus it writes
(R38, R50), the parameters (R7), the inputs to come (R23) and the observation (R66). -/

namespace Sys2Proof.Machine

/-- No constructor: "No behaviour of the block's function is `fault`" (93_implementation_defined.md section 2). No
meaning and no step raises a fault. -/
inductive Fault where
deriving DecidableEq, Repr

/-- Why a step or an arm gives no state. -/
inductive Refusal where
  /-- Raised by `exec`'s arm of an instruction that has no meaning yet. Safe. No arm raises it now. -/
  | notModelled (mnemonic : String)
  /-- Raised by `step` when the parameters break R7's constraints: R57, "A model should refuse such a configuration".
  Safe (log 12). -/
  | illegalConfiguration
deriving DecidableEq, Repr

/-- The ten values of the register `state` (R30). -/
inductive Fsm where
  | coldStart
  | linkWait
  | fatal
  | awaitFrame
  | decoding
  | replyErr
  | replyOk
  | settle
  | maybeCommit
  | commitWrite
deriving DecidableEq, Repr

/-- The reference encoding of R30. It is observable at no port and nothing reads it. -/
def Fsm.code : Fsm → BitVec 4
  | .coldStart   => 0#4
  | .linkWait    => 1#4
  | .fatal       => 2#4
  | .awaitFrame  => 3#4
  | .decoding    => 4#4
  | .replyErr    => 5#4
  | .replyOk     => 6#4
  | .settle      => 7#4
  | .maybeCommit => 8#4
  | .commitWrite => 9#4

/-- The registers of R30 to R37: the block's complete state (R21). -/
structure Regs where
  /-- `state` (R30), the analogue of a program counter. -/
  fsm       : Fsm
  /-- `buf[0..8]` (R31). -/
  buf       : Frame
  /-- `cnt` (R32). -/
  cnt       : BitVec 4
  /-- `ack_r` (R35). -/
  ackR      : Byte
  /-- `cur_pri` (R34). -/
  curPri    : U16
  /-- `cur_pw` (R34). -/
  curPw     : U16
  /-- `last_valid` (R33). -/
  lastValid : Bool
  /-- `last_pri` (R33). -/
  lastPri   : U16
  /-- `last_pw` (R33). -/
  lastPw    : U16
  /-- `settle_cnt` (R36). -/
  settleCnt : BitVec 32
  /-- `widx` (R37). -/
  widx      : BitVec 2
deriving DecidableEq, Repr

/-- The reset values of R42. -/
def Regs.reset : Regs :=
  { fsm := .coldStart
    buf := ⟨0#8, 0#8, 0#8, 0#8, 0#8, 0#8, 0#8, 0#8, 0#8⟩
    cnt := 0#4
    ackR := 0#8
    curPri := Config.DEFAULT_PRI
    curPw := Config.DEFAULT_PW
    lastValid := false
    lastPri := 0#16
    lastPw := 0#16
    settleCnt := 0#32
    widx := 0#2 }

/-- One handshake transfer (R66): a byte taken, a byte sent, a word written at an address. -/
inductive Event where
  | rx (b : Byte)
  | tx (b : Byte)
  | wr (addr : Nat) (v : U32)
deriving DecidableEq, Repr

/-- An event and the cycle at which it fired (R66). -/
structure Stamped where
  cycle : Nat
  event : Event
deriving DecidableEq, Repr

/-- The register bus (R50, R51): the bytes the block has written, addresses strictly rising. An address it does not
list has no value (log 6). -/
abbrev Memory := List Host.Cell

/-- The whole state. -/
structure State where
  /-- The block's registers. -/
  regs   : Regs
  /-- What the block has written on the register bus (R38). -/
  mem    : Memory
  /-- The parameters of R7, which no step changes (log 5). -/
  cfg    : Config.Params
  /-- The inputs of the coming cycles, oldest first (R23, log 4). -/
  inputs : List Config.Inputs
  /-- How many clock edges have passed (log 7). -/
  cycle  : Nat
  /-- The event trace of R66, newest event first (log 7). -/
  trace  : List Stamped
deriving DecidableEq, Repr

/-- The machine right after reset with parameters `p`, before the cycles whose inputs are `ins`: every register at its
R42 value, no write made, no event seen. -/
def State.resetWith (p : Config.Params) (ins : List Config.Inputs) : State :=
  { regs := Regs.reset, mem := [], cfg := p, inputs := ins, cycle := 0, trace := [] }

/-- The machine right after reset. Its parameters are the model's choice (log 5) and its inputs are free (log 4). -/
def State.reset : State := State.resetWith Config.reference []

end Sys2Proof.Machine
end

