-- ==== Sys2Proof/Machine/Operands.lean ====
section
/-! DEFINITION. Operand forms and values: the register image (R91), the address of each write (R25, R74) and the byte
lanes of a bus word (R54). -/

namespace Sys2Proof.Machine

/-- The register image (R91), computed in 32-bit unsigned arithmetic (R92). -/
def img (pri pw : U16) (i : BitVec 2) : U32 :=
  match i.toNat with
  | 0 => pw.setWidth 32 * BitVec.ofNat 32 Config.SCALE + BitVec.ofNat 32 Config.REG2_ADD
  | 1 => BitVec.ofNat 32 Config.REG3_VAL
  | 2 => pri.setWidth 32 * BitVec.ofNat 32 Config.SCALE
  | _ => pw.setWidth 32 * BitVec.ofNat 32 Config.SCALE + BitVec.ofNat 32 Config.REG5_ADD

/-- The offset the sequencer index selects (R74), by R8's names; their values make it `4 * (widx + 1)`
(`wrOffset_eq`). -/
def wrOffset (i : BitVec 2) : Nat :=
  match i.toNat with
  | 0 => Config.OFF_REG2
  | 1 => Config.OFF_REG3
  | 2 => Config.OFF_REG4
  | _ => Config.OFF_REG5

/-- `wr_addr = (WAVE_BASE + off) mod 2^ADDR_W` (R25, R74). -/
def wrAddr (p : Config.Params) (i : BitVec 2) : Nat := (p.waveBase + wrOffset i) % 2 ^ p.addrW

/-- Byte lane `k` of a bus word: `v[8k+7:8k]` (R54). -/
def lane (v : U32) (k : Nat) : Byte := v.extractLsb' (8 * k) 8

/-- The bus word whose lanes 0 to 3 are these bytes (R54). -/
def ofLanes (b0 b1 b2 b3 : Byte) : U32 := b3 ++ b2 ++ b1 ++ b0

end Sys2Proof.Machine
end

