-- ==== Sys2Proof/Machine/Flags.lean ====
section
/-! DEFINITION. The output ports (R22 to R25), the three fires (R26 to R28) and the conditions the arms test. The block
has no flag register (R40): every condition is computed in the cycle that uses it. -/

namespace Sys2Proof.Machine

/-- The output ports of R20. -/
structure Outputs where
  rxReady : Bool
  txValid : Bool
  txData  : Byte
  wrValid : Bool
  wrAddr  : Nat
  wrData  : U32
  fatal   : Bool
deriving DecidableEq, Repr

/-- The output equations of R25, with R24's gating by `rst`. Moore: no input but `rst` is an argument (R22). -/
def outputs (p : Config.Params) (rst : Bool) (r : Regs) : Outputs :=
  { rxReady := !rst && r.fsm == .awaitFrame
    txValid := !rst && (r.fsm == .replyErr || r.fsm == .replyOk)
    txData  := r.ackR
    wrValid := !rst && (r.fsm == .coldStart || r.fsm == .commitWrite)
    wrAddr  := wrAddr p r.widx
    wrData  := img r.curPri r.curPw r.widx
    fatal   := !rst && r.fsm == .fatal }

/-- The inputs sampled in the coming cycle: the oldest listed, or the free value (R23, log 4). -/
def State.now (s : State) : Config.Inputs :=
  match s.inputs with
  | i :: _ => i
  | [] => Config.freeInputs s.cycle

/-- The output ports in the coming cycle. -/
def State.out (s : State) : Outputs := outputs s.cfg s.now.rst s.regs

/-- `fire(rx) = rx_valid and rx_ready` (R26). -/
def State.fireRx (s : State) : Bool := s.now.rxValid && s.out.rxReady

/-- `fire(tx) = tx_valid and tx_ready` (R27). -/
def State.fireTx (s : State) : Bool := s.out.txValid && s.now.txReady

/-- `fire(wr) = wr_valid and wr_ready` (R28). -/
def State.fireWr (s : State) : Bool := s.out.wrValid && s.now.wrReady

/-- The block classifies a frame in this cycle: state DECODING (R123), and no arm runs under reset (R200). -/
def State.decodingNow (s : State) : Bool := !s.now.rst && s.regs.fsm == .decoding

/-- The byte now taken is the frame's last: `cnt = 8` (R130). -/
def Regs.lastByte (r : Regs) : Bool := r.cnt.toNat == Config.FRAME_LEN - 1

/-- The write now on the bus is the sequence's fourth: `widx = 3` (R97, R98). -/
def Regs.lastWrite (r : Regs) : Bool := r.widx == 3#2

/-- `settle_cnt = SETTLE_CYCLES - 1` (R147). -/
def Regs.settleDone (r : Regs) (p : Config.Params) : Bool := r.settleCnt.toNat == p.settleCycles - 1

/-- `last_valid = 1 and cur_pri = last_pri and cur_pw = last_pw` (R148). -/
def Regs.suppressed (r : Regs) : Bool := r.lastValid && r.curPri == r.lastPri && r.curPw == r.lastPw

end Sys2Proof.Machine
end

