-- ==== Sys2Proof/Machine/Ops.lean ====
section
/-! DEFINITION. The named operations: the bus as canonical memory and the 32-bit write, the clock edge, taking a
rejection and returning from it, accepting a frame, the sequencer, the reset edge. -/

namespace Sys2Proof.Machine

/-! ## The register bus -/

/-- Addresses strictly rising. An unlisted address has no value, so no entry can equal one (log 6). -/
def Memory.wf : Memory → Bool
  | [] => true
  | [_] => true
  | (a, _) :: (b, w) :: m => decide (a < b) && Memory.wf ((b, w) :: m)

/-- The byte the block last wrote at `a`, if it wrote one. The machine itself never reads the bus (R51). -/
def Memory.read : Memory → Nat → Option Byte
  | [], _ => none
  | (k, v) :: m, a => if k = a then some v else Memory.read m a

/-- Write one byte, keeping the canonical form. -/
def Memory.write : Memory → Nat → Byte → Memory
  | [], a, v => [(a, v)]
  | (k, w) :: m, a, v =>
    if a < k then (a, v) :: (k, w) :: m
    else if a = k then (a, v) :: m
    else (k, w) :: Memory.write m a v

/-- `MemWrite(a, 4, v)`: all four lanes, lane `k` to byte address `a + k` (R54, log 17). -/
def Memory.write32 (m : Memory) (a : Nat) (v : U32) : Memory :=
  ((((m.write a (lane v 0)).write (a + 1) (lane v 1)).write (a + 2) (lane v 2)).write (a + 3) (lane v 3))

/-- The word the block last wrote at `a`, if it wrote all four bytes. -/
def Memory.read32 (m : Memory) (a : Nat) : Option U32 :=
  match m.read a, m.read (a + 1), m.read (a + 2), m.read (a + 3) with
  | some b0, some b1, some b2, some b3 => some (ofLanes b0 b1 b2 b3)
  | _, _, _, _ => none

/-- What the block last wrote to the IP register the sequencer index `i` selects (R38, R74). -/
def State.ipReg (s : State) (i : BitVec 2) : Option U32 := s.mem.read32 (wrAddr s.cfg i)

/-! ## The clock edge and the events -/

/-- The rising edge that ends a cycle: the registers take their next values together (R10), the sampled inputs are
spent. -/
def State.edge (s : State) (r : Regs) : State :=
  { s with regs := r, inputs := s.inputs.tail, cycle := s.cycle + 1 }

/-- A cycle in which no register is scheduled an update: each keeps its value (R10). -/
def State.hold (s : State) : State := s.edge s.regs

/-- Record an event of this cycle (R66). -/
def State.emit (s : State) (e : Event) : State := { s with trace := ⟨s.cycle, e⟩ :: s.trace }

/-- The write transaction of R28: `MemWrite(wr_addr, 4, wr_data)` performed, and seen. -/
def State.busWrite (s : State) (a : Nat) (v : U32) : State :=
  { s.emit (.wr a v) with mem := s.mem.write32 a v }

/-! ## Exceptions: a rejection, its return, the fatal error -/

/-- Taking a rejection, the "trap entry" of R173: `ack_r <- k`, `state <- REPLY_ERR`, nothing saved. -/
def Regs.takeRejection (r : Regs) (code : Byte) : Regs := { r with ackR := code, fsm := .replyErr }

/-- Return from a rejection (R133, R174): `state <- AWAIT_FRAME`, nothing restored. -/
def Regs.returnFromRejection (r : Regs) : Regs := { r with fsm := .awaitFrame }

/-- The transport-initialisation failure (R138, R175): `state <- FATAL`. -/
def Regs.takeFatal (r : Regs) : Regs := { r with fsm := .fatal }

/-! ## Accepting, replying, writing -/

/-- Accepting a frame (R119, R123): `ack_r <- 0xA1; cur_pri <- pri; cur_pw <- pw; state <- REPLY_OK`. -/
def Regs.accept (r : Regs) (pri pw : U16) : Regs :=
  { r with ackR := Config.ACK_SUCCESS, curPri := pri, curPw := pw, fsm := .replyOk }

/-- The acknowledgment sent (R134): `settle_cnt <- 0; state <- SETTLE`. -/
def Regs.beginSettle (r : Regs) : Regs := { r with settleCnt := 0#32, fsm := .settle }

/-- The registers after `fire(tx)`: R134 in REPLY_OK, R133 in REPLY_ERR. No other state fires TX (R25). -/
def Regs.afterResponse (r : Regs) : Regs :=
  if r.fsm = .replyOk then r.beginSettle else r.returnFromRejection

/-- LastCommitted takes the pair just written (R97, R150). -/
def Regs.recordCommit (r : Regs) : Regs :=
  { r with lastPri := r.curPri, lastPw := r.curPw, lastValid := true }

/-- The registers after `fire(wr)`: the sequencer of R97 (COMMIT_WRITE) and R98 (COLD_START). -/
def Regs.afterWrite (r : Regs) : Regs :=
  if r.lastWrite then
    if r.fsm = .coldStart then { r with widx := 0#2, fsm := .linkWait }
    else { r.recordCommit with widx := 0#2, fsm := .awaitFrame }
  else { r with widx := r.widx + 1#2 }

/-- A frame byte taken (R130): `buf[cnt] <- b`, and the count or, on the ninth byte, DECODING. -/
def Regs.takeByte (r : Regs) (b : Byte) : Regs :=
  if r.lastByte then { r with buf := r.buf.set r.cnt.toNat b, cnt := 0#4, fsm := .decoding }
  else { r with buf := r.buf.set r.cnt.toNat b, cnt := r.cnt + 1#4 }

/-! ## Reset -/

/-- A rising edge with `rst = 1` (R200): every register takes its R42 value, no arm runs, no handshake fires (R24).
The bus keeps what was written (R202). -/
def State.resetEdge (s : State) : State := s.edge Regs.reset

end Sys2Proof.Machine
end

