-- ==== Sys2Proof/Machine/Codec.lean ====
section
/-! DEFINITION. The packet-codec and response families: SETP, the five rejections, ACK_SUCCESS (41_packet_codec.md,
42_transport.md). Each meaning is one clock cycle. An item that the block does not process in this cycle, because it is
in another state, under reset, or not yet taken by the sink, changes no register: no handshake fires (log 3). -/

namespace Sys2Proof.Machine

/-- The verdict recorded in DECODING (R123). -/
def recordVerdict (v : Verdict) (s : State) : State :=
  match v with
  | .accepted pri pw => s.edge (s.regs.accept pri pw)
  | .rejected k => s.edge (s.regs.takeRejection k.code)

/-- The response byte on `tx_data` transferred at `fire(tx)` (R27, R133, R134). -/
def sendResponse (s : State) : State := (s.emit (.tx s.out.txData)).edge s.regs.afterResponse

/-- The response `code` in this cycle: sent if it is the byte offered and the sink takes it, else still waiting (R135). -/
def respond (code : Byte) (s : State) : State :=
  if s.fireTx && s.regs.ackR == code then sendResponse s else s.hold

/-- A rejection: recorded in DECODING (R123), sent in REPLY_ERR (R133). -/
def reject (k : Reject) (s : State) : State :=
  if s.decodingNow then recordVerdict (.rejected k) s else respond k.code s

/-- SETP (R119): in DECODING the frame is accepted with its operands, or, where its K is not R75's, rejected by check 5
(R118, log 15). The rest of R152 runs in the states that follow. -/
def execSetp (pri pw : U16) (chk : Byte) (s : State) : Host.Outcome State Fault Refusal :=
  if s.decodingNow then .next (recordVerdict (verdict (setpFrame pri pw chk)) s) else .next s.hold

/-- ACK_SUCCESS (R134). -/
def execAckSuccess (s : State) : Host.Outcome State Fault Refusal :=
  .next (respond Config.ACK_SUCCESS s)

/-- ERR_START_OF_MESSAGE (R114). -/
def execErrStartOfMessage (s : State) : Host.Outcome State Fault Refusal :=
  .next (reject .startOfMessage s)

/-- ERR_END_OF_MESSAGE (R115). -/
def execErrEndOfMessage (s : State) : Host.Outcome State Fault Refusal :=
  .next (reject .endOfMessage s)

/-- ERR_MESSAGE_LENGTH (R116). -/
def execErrMessageLength (s : State) : Host.Outcome State Fault Refusal :=
  .next (reject .messageLength s)

/-- ERR_COMMAND_CODE (R117). -/
def execErrCommandCode (s : State) : Host.Outcome State Fault Refusal :=
  .next (reject .commandCode s)

/-- ERR_CHECKSUM (R118). -/
def execErrChecksum (s : State) : Host.Outcome State Fault Refusal :=
  .next (reject .checksum s)

end Sys2Proof.Machine
end

