-- ==== Sys2Proof/Machine/ControlLoop.lean ====
section
/-! DEFINITION. The arms that process no encoded item (R145): AWAIT_FRAME (R130), LINK_WAIT (R138), FATAL (R175),
SETTLE (R147), MAYBE_COMMIT (R148); and which item the block processes in a cycle. -/

namespace Sys2Proof.Machine

/-- AWAIT_FRAME (R130): a byte of any value is taken at `fire(rx)`. -/
def awaitFrameArm (s : State) : State :=
  if s.fireRx then (s.emit (.rx s.now.rxData)).edge (s.regs.takeByte s.now.rxData) else s.hold

/-- LINK_WAIT (R138): `link_err` wins over `link_up`. -/
def linkWaitArm (s : State) : State :=
  if s.now.linkErr then s.edge s.regs.takeFatal
  else if s.now.linkUp then s.edge { s.regs with fsm := .awaitFrame }
  else s.hold

/-- FATAL (R175): nothing changes. -/
def fatalArm (s : State) : State := s.hold

/-- SETTLE (R147; log 16 on states no run reaches). -/
def settleArm (s : State) : State :=
  if s.regs.settleDone s.cfg then s.edge { s.regs with fsm := .maybeCommit }
  else s.edge { s.regs with settleCnt := s.regs.settleCnt + 1#32 }

/-- MAYBE_COMMIT (R148). -/
def maybeCommitArm (s : State) : State :=
  if s.regs.suppressed then s.edge { s.regs with fsm := .awaitFrame }
  else s.edge { s.regs with widx := 0#2, fsm := .commitWrite }

/-- REPLY_ERR and REPLY_OK (R133, R134) on a byte that is none of the six codes, which no run offers (log 9). -/
def replyArm (s : State) : State := if s.fireTx then sendResponse s else s.hold

/-- The item the block processes in this cycle: the frame in `buf` in DECODING (R123), the byte on `tx_data` in REPLY_ERR
and REPLY_OK (R133, R134), the write on the bus in COLD_START and COMMIT_WRITE (R97, R98). -/
def fetch (s : State) : Option Instr :=
  match s.regs.fsm with
  | .decoding    => some (decodeFrame s.regs.buf)
  | .replyErr    => decodeResp s.regs.ackR
  | .replyOk     => decodeResp s.regs.ackR
  | .coldStart   => decodeRegbus (wrOffset s.regs.widx)
  | .commitWrite => decodeRegbus (wrOffset s.regs.widx)
  | .linkWait    => none
  | .fatal       => none
  | .awaitFrame  => none
  | .settle      => none
  | .maybeCommit => none

/-- The cycle of a state that processes no item (R145). DECODING, COLD_START and COMMIT_WRITE always have one. -/
def internalArm (s : State) : State :=
  match s.regs.fsm with
  | .awaitFrame  => awaitFrameArm s
  | .linkWait    => linkWaitArm s
  | .fatal       => fatalArm s
  | .settle      => settleArm s
  | .maybeCommit => maybeCommitArm s
  | .replyErr    => replyArm s
  | .replyOk     => replyArm s
  | .decoding    => s.hold
  | .coldStart   => s.hold
  | .commitWrite => s.hold

end Sys2Proof.Machine
end

