-- ==== Sys2Proof/Machine/RegisterInterface.lean ====
section
/-! DEFINITION. The register-interface family: the four write transactions (40_register_interface.md R93 to R96) inside
the sequencer arms COLD_START (R98) and COMMIT_WRITE (R97). -/

namespace Sys2Proof.Machine

/-- The write of index `i` in this cycle: performed if it is the write on the bus and the target accepts it (R28), else
the same write stays on the bus and nothing changes (R97, log 3). -/
def writeReg (i : BitVec 2) (s : State) : State :=
  if s.fireWr && s.regs.widx == i then
    (s.busWrite (wrAddr s.cfg i) (img s.regs.curPri s.regs.curPw i)).edge s.regs.afterWrite
  else s.hold

/-- WR_REG2 (R93). -/
def execWrReg2 (s : State) : Host.Outcome State Fault Refusal := .next (writeReg 0#2 s)

/-- WR_REG3 (R94). -/
def execWrReg3 (s : State) : Host.Outcome State Fault Refusal := .next (writeReg 1#2 s)

/-- WR_REG4 (R95). -/
def execWrReg4 (s : State) : Host.Outcome State Fault Refusal := .next (writeReg 2#2 s)

/-- WR_REG5 (R96). -/
def execWrReg5 (s : State) : Host.Outcome State Fault Refusal := .next (writeReg 3#2 s)

end Sys2Proof.Machine
end

