-- ==== Sys2Proof/Machine/Dispatch.lean ====
section
/-! DEFINITION. One arm per row of the opcode table. -/

namespace Sys2Proof.Machine

def exec (i : Instr) (s : State) : Host.Outcome State Fault Refusal :=
  match i with
  | .setp pri pw chk => Sys2Proof.Machine.execSetp pri pw chk s
  | .wrReg2 => Sys2Proof.Machine.execWrReg2 s
  | .wrReg3 => Sys2Proof.Machine.execWrReg3 s
  | .wrReg4 => Sys2Proof.Machine.execWrReg4 s
  | .wrReg5 => Sys2Proof.Machine.execWrReg5 s
  | .ackSuccess => Sys2Proof.Machine.execAckSuccess s
  | .errStartOfMessage => Sys2Proof.Machine.execErrStartOfMessage s
  | .errEndOfMessage => Sys2Proof.Machine.execErrEndOfMessage s
  | .errMessageLength => Sys2Proof.Machine.execErrMessageLength s
  | .errCommandCode => Sys2Proof.Machine.execErrCommandCode s
  | .errChecksum => Sys2Proof.Machine.execErrChecksum s

end Sys2Proof.Machine
end

