-- ==== Sys2Proof/WellFormed.lean ====
section
/-! DEFINITION. Which instructions and which configurations the spec admits. -/

namespace Sys2Proof

/-- R75: a frame spells SETP only with its constraint on K. The other items have no operand to check. -/
def Instr.wf : Instr → Bool
  | .setp pri pw chk    => chk == setpChecksum pri pw
  | .wrReg2             => true
  | .wrReg3             => true
  | .wrReg4             => true
  | .wrReg5             => true
  | .ackSuccess         => true
  | .errStartOfMessage  => true
  | .errEndOfMessage    => true
  | .errMessageLength   => true
  | .errCommandCode     => true
  | .errChecksum        => true

namespace Config

/-- `CLK_HZ` is an integer of at least 1 (R7). -/
def Params.clockWf (p : Params) : Bool := decide (1 ≤ p.clkHz)

/-- `CLK_HZ ≤ SETTLE_CYCLES ≤ 2^32`: the wait is at least SETTLE_SECONDS and fits the counter (R7, R147). -/
def Params.settleWf (p : Params) : Bool :=
  decide (p.clkHz * SETTLE_SECONDS ≤ p.settleCycles) && decide (p.settleCycles ≤ 2 ^ 32)

/-- `ADDR_W ≥ 5` (R7). -/
def Params.widthWf (p : Params) : Bool := decide (5 ≤ p.addrW)

/-- `WAVE_BASE mod 4 = 0` and `WAVE_BASE + 0x13 ≤ 2^ADDR_W − 1` (R7, R57): 0x13 is REG5's last byte. -/
def Params.baseWf (p : Params) : Bool :=
  decide (p.waveBase % 4 = 0) && decide (p.waveBase + (OFF_REG5 + 3) ≤ 2 ^ p.addrW - 1)

/-- A configuration inside the spec (R7). Any other is refused (R57, D10). -/
def Params.wf (p : Params) : Bool := p.clockWf && p.settleWf && p.widthWf && p.baseWf

end Config

end Sys2Proof
end

