-- ==== Sys2Proof/Machine/Step.lean ====
section
/-! DEFINITION. One clock cycle (R145): an illegal configuration is refused (R57, log 12); `rst` takes priority over every
arm (R200); otherwise the item the state processes is run, or the state's own arm. -/

namespace Sys2Proof.Machine

/-- R145. -/
def step (s : State) : Host.Outcome State Fault Refusal :=
  if s.cfg.wf then
    if s.now.rst then .next s.resetEdge
    else
      match fetch s with
      | some i => exec i s
      | none => .next (internalArm s)
  else .refused .illegalConfiguration

/-- One cycle in which reset is off, both handshake targets are ready and no byte is offered. -/
def readyInputs : Config.Inputs :=
  { rst := false, rxValid := false, rxData := 0#8, txReady := true, wrReady := true, linkUp := false, linkErr := false }

/-- `s` about to run the item that the bits `w` spell (log 11): a frame in `buf` in DECODING, a response byte in `ack_r`
in the state that sends it, a bus write as the write of a COLD_START or COMMIT_WRITE cycle; the next cycle's inputs let
its handshake fire. Bits that spell nothing leave `s` as it is. -/
def State.withFetchWord (s : State) (nbits w : Nat) : State :=
  match decodeTableWord nbits w with
  | none => s
  | some i =>
    let s := { s with inputs := readyInputs :: s.inputs }
    let byte := BitVec.ofNat 8 w
    if nbits = 8 * Config.FRAME_LEN then
      match Frame.ofBytes (frameBytesOfWord w) with
      | some f => { s with regs := { s.regs with buf := f, cnt := 0#4, fsm := .decoding } }
      | none => s
    else
      match i.wrIndex? with
      | some k =>
        { s with regs := { s.regs with
            widx := k
            fsm := if s.regs.fsm = .commitWrite then .commitWrite else .coldStart } }
      | none =>
        { s with regs := { s.regs with
            ackR := byte
            fsm := if byte = Config.ACK_SUCCESS then .replyOk else .replyErr } }

end Sys2Proof.Machine
end

