-- ==== Sys2Proof/Safety.lean ====
section
/-! DEFINITION. The terms claims are stated in: the invariants of R44, premises about the inputs of a run, and the untimed
trace of the source's loop (R155). -/

namespace Sys2Proof.Machine

/-! ## Invariants -/

/-- The invariants I1 to I6 of R44, with the registers' values and the settle time `n`. -/
structure Regs.Inv (n : Nat) (r : Regs) : Prop where
  /-- I1: `cnt ≤ 8`. -/
  cnt_le : r.cnt.toNat ≤ 8
  /-- I2: `widx = 0` unless the state writes. -/
  widx_zero : r.fsm ≠ .coldStart → r.fsm ≠ .commitWrite → r.widx = 0#2
  /-- I3: `settle_cnt < SETTLE_CYCLES` in SETTLE. -/
  settle_lt : r.fsm = .settle → r.settleCnt.toNat < n
  /-- I4: in REPLY_ERR `ack_r` is one of the five error codes. -/
  ack_err : r.fsm = .replyErr →
    r.ackR ∈ [Config.ERR_START_OF_MESSAGE, Config.ERR_MESSAGE_LENGTH, Config.ERR_COMMAND_CODE, Config.ERR_CHECKSUM,
      Config.ERR_END_OF_MESSAGE]
  /-- I5: from REPLY_OK to COMMIT_WRITE `ack_r` is ACK_SUCCESS, 0xA1. -/
  ack_ok : r.fsm ∈ [Fsm.replyOk, Fsm.settle, Fsm.maybeCommit, Fsm.commitWrite] → r.ackR = Config.ACK_SUCCESS
  /-- I6: outside AWAIT_FRAME `cnt = 0`. -/
  cnt_zero : r.fsm ≠ .awaitFrame → r.cnt = 0#4

/-- I1 to I6 in a state. -/
def State.Inv (s : State) : Prop := s.regs.Inv s.cfg.settleCycles

/-- The events are totally ordered by the cycle they fired in, at most one a cycle, none in the future (R60). -/
def traceOrdered (now : Nat) : List Stamped → Prop
  | [] => True
  | e :: es => e.cycle < now ∧ traceOrdered e.cycle es

/-! ## Premises about inputs -/

/-- The next `n` cycles have listed inputs, each of which satisfies `P`. -/
def State.nextInputs (s : State) (n : Nat) (P : Config.Inputs → Prop) : Prop :=
  n ≤ s.inputs.length ∧ ∀ i ∈ s.inputs.take n, P i

/-- No reset for `n` cycles. -/
def State.noReset (s : State) (n : Nat) : Prop := s.nextInputs n fun i => i.rst = false

/-- For `n` cycles no reset, and each handshake the block offers is met at once (R155, R211). -/
def State.eager (s : State) (n : Nat) : Prop :=
  s.nextInputs n fun i => i.rst = false ∧ i.txReady = true ∧ i.wrReady = true

/-! ## The untimed trace of R155 -/

/-- The four writes of `program(pri, pw)` (R90), in order. -/
def programEvents (p : Config.Params) (pri pw : U16) : List Event :=
  [.wr (wrAddr p 0#2) (img pri pw 0#2), .wr (wrAddr p 1#2) (img pri pw 1#2),
   .wr (wrAddr p 2#2) (img pri pw 2#2), .wr (wrAddr p 3#2) (img pri pw 3#2)]

/-- The response and the writes that a frame with verdict `v` causes when `last` was committed last (R155). -/
def answerEvents (p : Config.Params) (last : Option (U16 × U16)) : Verdict → List Event
  | .rejected k => [.tx k.code]
  | .accepted pri pw => .tx Config.ACK_SUCCESS :: if last = some (pri, pw) then [] else programEvents p pri pw

/-- What is committed last after a frame with verdict `v` (R155). -/
def lastAfter (last : Option (U16 × U16)) : Verdict → Option (U16 × U16)
  | .rejected _ => last
  | .accepted pri pw => some (pri, pw)

/-- The loop of R155 on the bytes received: nine by nine, then a trailing group of RX events only. -/
def loopTrace (p : Config.Params) (last : Option (U16 × U16)) : List Byte → List Event
  | b0 :: b1 :: b2 :: b3 :: b4 :: b5 :: b6 :: b7 :: b8 :: bs =>
    let v := verdict ⟨b0, b1, b2, b3, b4, b5, b6, b7, b8⟩
    [.rx b0, .rx b1, .rx b2, .rx b3, .rx b4, .rx b5, .rx b6, .rx b7, .rx b8] ++
      (answerEvents p last v ++ loopTrace p (lastAfter last v) bs)
  | bs => bs.map .rx

/-- `trace(bytes)` of R155: the cold-start writes, then the loop with nothing committed. -/
def blockTrace (p : Config.Params) (bytes : List Byte) : List Event :=
  programEvents p Config.DEFAULT_PRI Config.DEFAULT_PW ++ loopTrace p none bytes

/-- The untimed trace of a state, oldest event first (R66). -/
def State.events (s : State) : List Event := (s.trace.map Stamped.event).reverse

/-- The byte an RX event took. -/
def Event.rxByte? : Event → Option Byte
  | .rx b => some b
  | .tx _ => none
  | .wr _ _ => none

/-- The bytes taken so far, in order. -/
def State.bytesTaken (s : State) : List Byte := s.events.filterMap Event.rxByte?

end Sys2Proof.Machine
end

