-- ==== Sys2Proof/Certificates/Slice0/Obligations.lean ====
section
/-! DEFINITION. The statements for the provers. Each names the rules of spec/ it formalises; OBLIGATIONS.json lists
them. `rst = 0` premises say that the cycle is no reset cycle, which ResetEdgeLoadsTheResetValues states. -/

open Sys2Proof Sys2Proof.Machine

/-! ## Encodings -/

/-- Encoding loses no bit: every well-formed item decodes, in its format, to itself (R70 to R75, R80). -/
def Obligations.DecodeOfEncodeIsTheInstruction : Prop :=
  ∀ i : Instr, i.wf = true → decode i.format (encode i) = .ok i

/-- No two spellings: bytes that decode to an item of their own format are that item's encoding, and every decoded item is
well-formed (R73, R74, R75). A rejected frame decodes to an item of the response format. -/
def Obligations.DecodedBytesAreTheOnlySpelling : Prop :=
  ∀ (fmt : Format) (bs : List Byte) (i : Instr), decode fmt bs = .ok i →
    i.wf = true ∧ (i.format = fmt → encode i = bs)

/-- The checks SOM, EOM, LEN, CMD, CHK in this order (R110), the first failing one deciding (R113), with the codes of R73;
an accepted frame's operands are its bytes 3 to 6, big-endian (R72). -/
def Obligations.FirstFailingCheckDecides : Prop :=
  ∀ f : Frame,
    (f.som ≠ 0xC9#8 → verdict f = .rejected .startOfMessage) ∧
    (f.som = 0xC9#8 → f.eom ≠ 0xCE#8 → verdict f = .rejected .endOfMessage) ∧
    (f.som = 0xC9#8 → f.eom = 0xCE#8 → f.len ≠ 0x05#8 → verdict f = .rejected .messageLength) ∧
    (f.som = 0xC9#8 → f.eom = 0xCE#8 → f.len = 0x05#8 → f.cmd ≠ 0x01#8 →
      verdict f = .rejected .commandCode) ∧
    (f.som = 0xC9#8 → f.eom = 0xCE#8 → f.len = 0x05#8 → f.cmd = 0x01#8 →
      f.cmd ^^^ f.pwHi ^^^ f.pwLo ^^^ f.priHi ≠ f.chk → verdict f = .rejected .checksum) ∧
    (f.som = 0xC9#8 → f.eom = 0xCE#8 → f.len = 0x05#8 → f.cmd = 0x01#8 →
      f.cmd ^^^ f.pwHi ^^^ f.pwLo ^^^ f.priHi = f.chk →
      ∃ pri pw : U16, verdict f = .accepted pri pw ∧
        pri.toNat = f.priHi.toNat * 256 + f.priLo.toNat ∧
        pw.toNat = f.pwHi.toNat * 256 + f.pwLo.toNat) ∧
    Reject.code .startOfMessage = 0xE1#8 ∧ Reject.code .endOfMessage = 0xE5#8 ∧
    Reject.code .messageLength = 0xE2#8 ∧ Reject.code .commandCode = 0xE3#8 ∧ Reject.code .checksum = 0xE4#8

/-- Every frame decodes, and to SETP or to one of the five rejections (R76, R77; that these are six outcomes and not R76's
seven is the model's reading, log 14). -/
def Obligations.EveryFrameHasOneOutcome : Prop :=
  ∀ f : Frame, ∃ i : Instr, decode .frame f.toBytes = .ok i ∧
    ((∃ pri pw k, i = .setp pri pw k) ∨
      i ∈ [Instr.errStartOfMessage, .errEndOfMessage, .errMessageLength, .errCommandCode, .errChecksum])

/-- A SETP frame whose K misses the constraint of R75 is rejected by the checksum check (R118). -/
def Obligations.WrongChecksumByteIsRejected : Prop :=
  ∀ (pri pw : U16) (k : Byte), k ≠ 0x01#8 ^^^ hiByte pw ^^^ loByte pw ^^^ hiByte pri →
    decode .frame (encode (.setp pri pw k)) = .ok .errChecksum

/-- Changing byte 3, 4, 5 or 7 alone of an accepted frame gives E4; the same change in two of bytes 3, 4, 5 cancels
(R118, corner cases). A change in byte 2, which R111's checksum covers too, is caught by check 4 and gives E3 (R117):
FirstFailingCheckDecides. -/
def Obligations.CoveredByteErrors : Prop :=
  ∀ (f : Frame) (pri pw : U16) (b m : Byte), verdict f = .accepted pri pw →
    (b ≠ f.pwHi → verdict { f with pwHi := b } = .rejected .checksum) ∧
    (b ≠ f.pwLo → verdict { f with pwLo := b } = .rejected .checksum) ∧
    (b ≠ f.priHi → verdict { f with priHi := b } = .rejected .checksum) ∧
    (b ≠ f.chk → verdict { f with chk := b } = .rejected .checksum) ∧
    (∃ pw', verdict { f with pwHi := f.pwHi ^^^ m, pwLo := f.pwLo ^^^ m } = .accepted pri pw') ∧
    (∃ pri' pw', verdict { f with pwHi := f.pwHi ^^^ m, priHi := f.priHi ^^^ m } = .accepted pri' pw') ∧
    (∃ pri' pw', verdict { f with pwLo := f.pwLo ^^^ m, priHi := f.priHi ^^^ m } = .accepted pri' pw')

/-- PRI_LO is not protected: an accepted frame stays accepted when only byte 6 changes, and its PRI changes in bits 7:0
only (R121). -/
def Obligations.PriLoIsUnprotected : Prop :=
  ∀ (f : Frame) (pri pw : U16) (b : Byte), verdict f = .accepted pri pw →
    ∃ pri', verdict { f with priLo := b } = .accepted pri' pw ∧ hiByte pri' = hiByte pri ∧ loByte pri' = b

/-- Words written out from the spec's encodings decode to the items they stand for (R73, R74, R75 and
95_test_vectors.md). A sanity statement. -/
def Obligations.WordsOfTheSpecDecode : Prop :=
  decode .frame [0xC9#8, 0x05#8, 0x01#8, 0x00#8, 0x56#8, 0x12#8, 0x34#8, 0x45#8, 0xCE#8] =
      .ok (.setp 0x1234#16 0x0056#16 0x45#8) ∧
    decode .frame [0xC9#8, 0x05#8, 0x01#8, 0x00#8, 0x02#8, 0x03#8, 0xE8#8, 0xEA#8, 0xCE#8] = .ok .errChecksum ∧
    decode .resp [0b10100001#8] = .ok .ackSuccess ∧
    decode .resp [0b11100101#8] = .ok .errEndOfMessage ∧
    decode .regbus [0x0C#8] = .ok .wrReg4 ∧
    decode .regbus [0x14#8] = .error .notAnOffset ∧ decode .resp [0xE6#8] = .error .notAResponse

/-! ## The register image -/

/-- The register image is R91's formula, exact over the naturals: no result wraps, each is a multiple of 100 and at most
6553700 (the exactness and the last clause are inferences of R92's own). -/
def Obligations.RegisterImageIsExact : Prop :=
  ∀ pri pw : U16,
    (img pri pw 0#2).toNat = pw.toNat * 100 + 200 ∧ (img pri pw 1#2).toNat = 100 ∧
    (img pri pw 2#2).toNat = pri.toNat * 100 ∧ (img pri pw 3#2).toNat = pw.toNat * 100 + 100 ∧
    ∀ i : BitVec 2, (img pri pw i).toNat % 100 = 0 ∧ (img pri pw i).toNat ≤ 6553700

/-- Equal pairs and equal images are the same thing (R149). -/
def Obligations.RegisterImageIsInjective : Prop :=
  ∀ pri pw pri' pw' : U16,
    (∀ i : BitVec 2, img pri pw i = img pri' pw' i) ↔ pri = pri' ∧ pw = pw'

/-! ## The step, reset, ports -/

/-- A cycle that processes an item is `exec` of that item: the frame in `buf` in DECODING (R123), the byte on `tx_data`
in REPLY_ERR and REPLY_OK (R133, R134), the write on the bus in COLD_START and COMMIT_WRITE (R97, R98). -/
def Obligations.StepRunsTheDecodedItem : Prop :=
  ∀ (s : State) (i : Instr), s.cfg.wf = true → s.now.rst = false →
    (s.regs.fsm = .decoding → decode .frame s.regs.buf.toBytes = .ok i → step s = exec i s) ∧
    (s.regs.fsm = .replyErr ∨ s.regs.fsm = .replyOk → decode .resp [s.out.txData] = .ok i → step s = exec i s) ∧
    (s.regs.fsm = .coldStart ∨ s.regs.fsm = .commitWrite →
      decode .regbus [BitVec.ofNat 8 (4 * (s.regs.widx.toNat + 1))] = .ok i → step s = exec i s)

/-- The step function is total on every legal configuration (R145), in every state, reached or not. -/
def Obligations.StepIsTotal : Prop :=
  ∀ s : State, s.cfg.wf = true → ∃ t, step s = .next t

/-- A step is refused exactly when the parameters break a constraint of R7 (R57; the refusal at every step is the model's
choice, log 12). -/
def Obligations.IllegalConfigurationIsRefused : Prop :=
  ∀ s : State, step s = .refused .illegalConfiguration ↔
    ¬ (1 ≤ s.cfg.clkHz ∧ s.cfg.clkHz ≤ s.cfg.settleCycles ∧ s.cfg.settleCycles ≤ 2 ^ 32 ∧ 5 ≤ s.cfg.addrW ∧
      s.cfg.waveBase % 4 = 0 ∧ s.cfg.waveBase + 0x13 ≤ 2 ^ s.cfg.addrW - 1)

/-- A rising edge with `rst = 1` loads every register's value of R42, whatever the state and inputs; no handshake fires,
the bus keeps what was written (R200). -/
def Obligations.ResetEdgeLoadsTheResetValues : Prop :=
  ∀ s : State, s.cfg.wf = true → s.now.rst = true →
    step s = .next
      { s with
        regs :=
          { fsm := .coldStart, buf := ⟨0#8, 0#8, 0#8, 0#8, 0#8, 0#8, 0#8, 0#8, 0#8⟩, cnt := 0#4, ackR := 0#8
            curPri := 500#16, curPw := 2#16, lastValid := false, lastPri := 0#16, lastPw := 0#16
            settleCnt := 0#32, widx := 0#2 }
        inputs := s.inputs.tail
        cycle := s.cycle + 1 }

/-- The registers of the machine right after reset are those of R42, for all parameters and inputs. -/
def Obligations.ResetStateHoldsTheResetValues : Prop :=
  ∀ (p : Config.Params) (ins : List Config.Inputs),
    (State.resetWith p ins).regs =
        { fsm := .coldStart, buf := ⟨0#8, 0#8, 0#8, 0#8, 0#8, 0#8, 0#8, 0#8, 0#8⟩, cnt := 0#4, ackR := 0#8
          curPri := 500#16, curPw := 2#16, lastValid := false, lastPri := 0#16, lastPw := 0#16
          settleCnt := 0#32, widx := 0#2 } ∧
      State.reset.regs = (State.resetWith p ins).regs

/-- The output equations (R25), and no address wraps on a legal configuration. -/
def Obligations.OutputEquations : Prop :=
  ∀ s : State,
    (s.out.rxReady = true ↔ s.now.rst = false ∧ s.regs.fsm = .awaitFrame) ∧
    (s.out.txValid = true ↔ s.now.rst = false ∧ (s.regs.fsm = .replyErr ∨ s.regs.fsm = .replyOk)) ∧
    s.out.txData = s.regs.ackR ∧
    (s.out.wrValid = true ↔ s.now.rst = false ∧ (s.regs.fsm = .coldStart ∨ s.regs.fsm = .commitWrite)) ∧
    s.out.wrAddr = (s.cfg.waveBase + 4 * (s.regs.widx.toNat + 1)) % 2 ^ s.cfg.addrW ∧
    s.out.wrData = img s.regs.curPri s.regs.curPw s.regs.widx ∧
    (s.out.fatal = true ↔ s.now.rst = false ∧ s.regs.fsm = .fatal) ∧
    (s.cfg.wf = true → s.out.wrAddr = s.cfg.waveBase + 4 * (s.regs.widx.toNat + 1))

/-- While `rst = 1` no output is raised and no handshake fires (R24). -/
def Obligations.NoHandshakeUnderReset : Prop :=
  ∀ s : State, s.now.rst = true →
    s.out.rxReady = false ∧ s.out.txValid = false ∧ s.out.wrValid = false ∧ s.out.fatal = false ∧
    s.fireRx = false ∧ s.fireTx = false ∧ s.fireWr = false

/-- A transfer happens exactly in the cycles where its handshake fires, valid and ready, once, with the value offered, and
the bus changes exactly by the write that fires (R26, R27, R28); at most one handshake fires (an inference of R60's own).
The trace is a field of the model's own (log 7). -/
def Obligations.EventsAreTheFires : Prop :=
  ∀ s t : State, step s = .next t →
    s.fireRx = (s.now.rxValid && s.out.rxReady) ∧ s.fireTx = (s.out.txValid && s.now.txReady) ∧
      s.fireWr = (s.out.wrValid && s.now.wrReady) ∧
      t.trace =
        (if s.fireRx = true then [⟨s.cycle, .rx s.now.rxData⟩] else []) ++
        (if s.fireTx = true then [⟨s.cycle, .tx s.out.txData⟩] else []) ++
        (if s.fireWr = true then [⟨s.cycle, .wr s.out.wrAddr s.out.wrData⟩] else []) ++ s.trace ∧
      t.mem = (if s.fireWr = true then s.mem.write32 s.out.wrAddr s.out.wrData else s.mem) ∧
      ¬ (s.fireRx = true ∧ s.fireTx = true) ∧ ¬ (s.fireRx = true ∧ s.fireWr = true) ∧
      ¬ (s.fireTx = true ∧ s.fireWr = true)

/-- The complete transition relation of R146, reset included. -/
def Obligations.StateGraph : Prop :=
  ∀ s t : State, step s = .next t →
    t.regs.fsm =
      if s.now.rst = true then .coldStart
      else match s.regs.fsm with
        | .coldStart => if s.now.wrReady = true ∧ s.regs.widx = 3#2 then .linkWait else .coldStart
        | .linkWait =>
          if s.now.linkErr = true then .fatal else if s.now.linkUp = true then .awaitFrame else .linkWait
        | .fatal => .fatal
        | .awaitFrame => if s.now.rxValid = true ∧ s.regs.cnt = 8#4 then .decoding else .awaitFrame
        | .decoding => if ∃ pri pw, verdict s.regs.buf = .accepted pri pw then .replyOk else .replyErr
        | .replyErr => if s.now.txReady = true then .awaitFrame else .replyErr
        | .replyOk => if s.now.txReady = true then .settle else .replyOk
        | .settle => if s.regs.settleCnt.toNat = s.cfg.settleCycles - 1 then .maybeCommit else .settle
        | .maybeCommit =>
          if s.regs.lastValid = true ∧ s.regs.curPri = s.regs.lastPri ∧ s.regs.curPw = s.regs.lastPw
          then .awaitFrame else .commitWrite
        | .commitWrite => if s.now.wrReady = true ∧ s.regs.widx = 3#2 then .awaitFrame else .commitWrite

/-! ## What the items do: each conclusion is a next state -/

/-- SETP in DECODING (R119): accepted with its operands, for every pair of operands. -/
def Obligations.SetpIsAccepted : Prop :=
  ∀ (s : State) (pri pw : U16) (k : Byte), s.now.rst = false → s.regs.fsm = .decoding →
    k = 0x01#8 ^^^ hiByte pw ^^^ loByte pw ^^^ hiByte pri →
    exec (.setp pri pw k) s = .next
      { s with
        regs := { s.regs with ackR := 0xA1#8, curPri := pri, curPw := pw, fsm := .replyOk }
        inputs := s.inputs.tail
        cycle := s.cycle + 1 }

/-- A SETP term whose K misses R75's constraint is no SETP: in DECODING it takes the rejection E4 (R118). That such a term
exists is the model's reading (log 15). -/
def Obligations.IllFormedSetpTakesTheChecksumRejection : Prop :=
  ∀ (s : State) (pri pw : U16) (k : Byte), s.now.rst = false → s.regs.fsm = .decoding →
    k ≠ 0x01#8 ^^^ hiByte pw ^^^ loByte pw ^^^ hiByte pri →
    exec (.setp pri pw k) s = .next
      { s with
        regs := { s.regs with ackR := 0xE4#8, fsm := .replyErr }
        inputs := s.inputs.tail
        cycle := s.cycle + 1 }

/-- The five rejections in DECODING (R114 to R118, R173): `ack_r` takes the code, REPLY_ERR is entered, nothing is saved
and nothing else changes. -/
def Obligations.RejectionsAreRecorded : Prop :=
  ∀ (s : State), s.now.rst = false → s.regs.fsm = .decoding →
    ∀ x ∈ [(Instr.errStartOfMessage, 0xE1#8), (.errEndOfMessage, 0xE5#8), (.errMessageLength, 0xE2#8),
        (.errCommandCode, 0xE3#8), (.errChecksum, 0xE4#8)],
      exec x.1 s = .next
        { s with
          regs := { s.regs with ackR := x.2, fsm := .replyErr }
          inputs := s.inputs.tail
          cycle := s.cycle + 1 }

/-- The five error responses in REPLY_ERR (R133, R174): the byte is sent, the block returns to AWAIT_FRAME. -/
def Obligations.ErrorResponsesAreSent : Prop :=
  ∀ (s : State), s.now.rst = false → s.now.txReady = true → s.regs.fsm = .replyErr →
    ∀ x ∈ [(Instr.errStartOfMessage, 0xE1#8), (.errEndOfMessage, 0xE5#8), (.errMessageLength, 0xE2#8),
        (.errCommandCode, 0xE3#8), (.errChecksum, 0xE4#8)],
      s.regs.ackR = x.2 →
      exec x.1 s = .next
        { s with
          regs := { s.regs with fsm := .awaitFrame }
          inputs := s.inputs.tail
          cycle := s.cycle + 1
          trace := ⟨s.cycle, .tx x.2⟩ :: s.trace }

/-- ACK_SUCCESS in REPLY_OK (R134): 0xA1 is sent and the settle wait begins. -/
def Obligations.AcknowledgmentIsSent : Prop :=
  ∀ (s : State), s.now.rst = false → s.now.txReady = true → s.regs.fsm = .replyOk → s.regs.ackR = 0xA1#8 →
    exec .ackSuccess s = .next
      { s with
        regs := { s.regs with settleCnt := 0#32, fsm := .settle }
        inputs := s.inputs.tail
        cycle := s.cycle + 1
        trace := ⟨s.cycle, .tx 0xA1#8⟩ :: s.trace }

/-- The four writes in COLD_START (R93 to R96, R98): each writes its register's value at its address, the fourth ends the
cold start and leaves LastCommitted alone. -/
def Obligations.ColdStartWrites : Prop :=
  ∀ (s : State), s.cfg.wf = true → s.now.rst = false → s.now.wrReady = true → s.regs.fsm = .coldStart →
    let write (off v : Nat) (r : Regs) : State :=
      { s with
        regs := r
        mem := s.mem.write32 (s.cfg.waveBase + off) (BitVec.ofNat 32 v)
        inputs := s.inputs.tail
        cycle := s.cycle + 1
        trace := ⟨s.cycle, .wr (s.cfg.waveBase + off) (BitVec.ofNat 32 v)⟩ :: s.trace }
    (s.regs.widx = 0#2 →
      exec .wrReg2 s = .next (write 0x04 (s.regs.curPw.toNat * 100 + 200) { s.regs with widx := 1#2 })) ∧
    (s.regs.widx = 1#2 → exec .wrReg3 s = .next (write 0x08 100 { s.regs with widx := 2#2 })) ∧
    (s.regs.widx = 2#2 →
      exec .wrReg4 s = .next (write 0x0C (s.regs.curPri.toNat * 100) { s.regs with widx := 3#2 })) ∧
    (s.regs.widx = 3#2 →
      exec .wrReg5 s = .next
        (write 0x10 (s.regs.curPw.toNat * 100 + 100) { s.regs with widx := 0#2, fsm := .linkWait }))

/-- The four writes in COMMIT_WRITE (R93 to R97): as in COLD_START, but the fourth records the pair in LastCommitted and
returns to AWAIT_FRAME. -/
def Obligations.CommitWrites : Prop :=
  ∀ (s : State), s.cfg.wf = true → s.now.rst = false → s.now.wrReady = true → s.regs.fsm = .commitWrite →
    let write (off v : Nat) (r : Regs) : State :=
      { s with
        regs := r
        mem := s.mem.write32 (s.cfg.waveBase + off) (BitVec.ofNat 32 v)
        inputs := s.inputs.tail
        cycle := s.cycle + 1
        trace := ⟨s.cycle, .wr (s.cfg.waveBase + off) (BitVec.ofNat 32 v)⟩ :: s.trace }
    (s.regs.widx = 0#2 →
      exec .wrReg2 s = .next (write 0x04 (s.regs.curPw.toNat * 100 + 200) { s.regs with widx := 1#2 })) ∧
    (s.regs.widx = 1#2 → exec .wrReg3 s = .next (write 0x08 100 { s.regs with widx := 2#2 })) ∧
    (s.regs.widx = 2#2 →
      exec .wrReg4 s = .next (write 0x0C (s.regs.curPri.toNat * 100) { s.regs with widx := 3#2 })) ∧
    (s.regs.widx = 3#2 →
      exec .wrReg5 s = .next
        (write 0x10 (s.regs.curPw.toNat * 100 + 100)
          { s.regs with
            widx := 0#2, fsm := .awaitFrame, lastPri := s.regs.curPri, lastPw := s.regs.curPw, lastValid := true }))

/-- An item whose handshake does not fire, or that is not the one the block offers in this cycle (another write is on the
bus, another byte on `tx_data`, no frame is decoded), changes no register, no byte and no event: the cycle passes (R10,
R27, R28). That it does so where the block does not process the item is the model's reading (log 3). -/
def Obligations.ItemsNotTransferredChangeNothing : Prop :=
  ∀ (i : Instr) (s : State),
    (∀ x ∈ [(Instr.wrReg2, 0#2), (.wrReg3, 1#2), (.wrReg4, 2#2), (.wrReg5, 3#2)], i = x.1 →
      ¬ (s.fireWr = true ∧ s.regs.widx = x.2)) →
    (∀ x ∈ [(Instr.ackSuccess, 0xA1#8), (.errStartOfMessage, 0xE1#8), (.errEndOfMessage, 0xE5#8),
        (.errMessageLength, 0xE2#8), (.errCommandCode, 0xE3#8), (.errChecksum, 0xE4#8)], i = x.1 →
      ¬ (s.fireTx = true ∧ s.regs.ackR = x.2)) →
    (i.format ≠ .regbus → i ≠ .ackSuccess → s.decodingNow = false) →
    exec i s = .next { s with inputs := s.inputs.tail, cycle := s.cycle + 1 }

/-! ## Frames -/

/-- What SETP, the five rejections and ACK_SUCCESS leave unchanged (R43, R119, R123, R133, R134, R151): all of the bus,
the parameters, `buf`, `cnt`, LastCommitted, `widx`; the operands but for SETP in DECODING; `ack_r` outside DECODING;
`settle_cnt` outside REPLY_OK; and every register outside DECODING, REPLY_ERR and REPLY_OK, where the block processes none
of these items (that `exec` then changes nothing is the model's reading, log 3, as it is for SETP outside DECODING). -/
def Obligations.FrameOfSetpAndResponses : Prop :=
  ∀ (i : Instr) (s t : State), i.format ≠ .regbus → exec i s = .next t →
    (∀ a : Nat, t.mem.read a = s.mem.read a) ∧ t.cfg = s.cfg ∧
    t.regs.buf = s.regs.buf ∧ t.regs.cnt = s.regs.cnt ∧ t.regs.widx = s.regs.widx ∧
    t.regs.lastValid = s.regs.lastValid ∧ t.regs.lastPri = s.regs.lastPri ∧ t.regs.lastPw = s.regs.lastPw ∧
    (i.format = .resp ∨ s.regs.fsm ≠ .decoding → t.regs.curPri = s.regs.curPri ∧ t.regs.curPw = s.regs.curPw) ∧
    (s.regs.fsm ≠ .decoding → t.regs.ackR = s.regs.ackR) ∧
    (s.regs.fsm ≠ .replyOk → t.regs.settleCnt = s.regs.settleCnt) ∧
    (s.regs.fsm ∉ [Fsm.decoding, .replyErr, .replyOk] → t.regs = s.regs)

/-- What the four writes leave unchanged (R43, R93 to R98): `buf`, `cnt`, `ack_r`, the operands, `settle_cnt`, the
parameters; LastCommitted but for WR_REG5 in COMMIT_WRITE; every byte of the bus outside the four bytes at the address
the write goes to. -/
def Obligations.FrameOfRegisterWrites : Prop :=
  ∀ (x : Instr × BitVec 2) (s t : State),
    x ∈ [(Instr.wrReg2, 0#2), (.wrReg3, 1#2), (.wrReg4, 2#2), (.wrReg5, 3#2)] → exec x.1 s = .next t →
    t.cfg = s.cfg ∧ t.regs.buf = s.regs.buf ∧ t.regs.cnt = s.regs.cnt ∧ t.regs.ackR = s.regs.ackR ∧
    t.regs.curPri = s.regs.curPri ∧ t.regs.curPw = s.regs.curPw ∧ t.regs.settleCnt = s.regs.settleCnt ∧
    (x.1 ≠ .wrReg5 ∨ s.regs.fsm ≠ .commitWrite →
      t.regs.lastValid = s.regs.lastValid ∧ t.regs.lastPri = s.regs.lastPri ∧ t.regs.lastPw = s.regs.lastPw) ∧
    (x.1 ≠ .wrReg5 → t.regs.fsm = s.regs.fsm) ∧
    ∀ a : Nat, ¬ (wrAddr s.cfg x.2 ≤ a ∧ a < wrAddr s.cfg x.2 + 4) → t.mem.read a = s.mem.read a

/-- A write that fires puts byte lane `k` of the word at byte address `a + k`, little-endian (R54), and the word reads
back from what was written. -/
def Obligations.WritesAreLittleEndian : Prop :=
  ∀ (s t : State), step s = .next t → s.fireWr = true →
    ∀ k < 4, ∃ b : Byte, t.mem.read (s.out.wrAddr + k) = some b ∧
      b.toNat = s.out.wrData.toNat / 256 ^ k % 256

/-! ## The arms -/

/-- The DECODING arm (R123). -/
def Obligations.DecodingArm : Prop :=
  ∀ s : State, s.cfg.wf = true → s.now.rst = false → s.regs.fsm = .decoding →
    (∀ k, verdict s.regs.buf = .rejected k →
      step s = .next
        { s with
          regs := { s.regs with ackR := k.code, fsm := .replyErr }, inputs := s.inputs.tail, cycle := s.cycle + 1 }) ∧
    (∀ pri pw, verdict s.regs.buf = .accepted pri pw →
      step s = .next
        { s with
          regs := { s.regs with ackR := 0xA1#8, curPri := pri, curPw := pw, fsm := .replyOk }
          inputs := s.inputs.tail, cycle := s.cycle + 1 })

/-- The AWAIT_FRAME arm (R130), with byte `cnt` of `buf` replaced in the list of its bytes. -/
def Obligations.AwaitFrameArm : Prop :=
  ∀ s : State, s.cfg.wf = true → s.now.rst = false → s.regs.fsm = .awaitFrame → s.regs.cnt.toNat ≤ 8 →
    (s.now.rxValid = false → step s = .next { s with inputs := s.inputs.tail, cycle := s.cycle + 1 }) ∧
    (s.now.rxValid = true →
      ∃ f : Frame, f.toBytes = s.regs.buf.toBytes.set s.regs.cnt.toNat s.now.rxData ∧
        step s = .next
          { s with
            regs :=
              if s.regs.cnt = 8#4 then { s.regs with buf := f, cnt := 0#4, fsm := .decoding }
              else { s.regs with buf := f, cnt := s.regs.cnt + 1#4 }
            inputs := s.inputs.tail
            cycle := s.cycle + 1
            trace := ⟨s.cycle, .rx s.now.rxData⟩ :: s.trace })

/-- The REPLY_ERR arm (R133). That it runs whatever byte `ack_r` holds, and not only on the five error codes, is the
model's reading (log 9). -/
def Obligations.ReplyErrArm : Prop :=
  ∀ s : State, s.cfg.wf = true → s.now.rst = false → s.regs.fsm = .replyErr →
    step s = .next
      (if s.now.txReady = true then
        { s with
          regs := { s.regs with fsm := .awaitFrame }, inputs := s.inputs.tail, cycle := s.cycle + 1
          trace := ⟨s.cycle, .tx s.regs.ackR⟩ :: s.trace }
      else { s with inputs := s.inputs.tail, cycle := s.cycle + 1 })

/-- The REPLY_OK arm (R134). That it runs whatever byte `ack_r` holds, and not only on 0xA1, is the model's reading
(log 9). -/
def Obligations.ReplyOkArm : Prop :=
  ∀ s : State, s.cfg.wf = true → s.now.rst = false → s.regs.fsm = .replyOk →
    step s = .next
      (if s.now.txReady = true then
        { s with
          regs := { s.regs with settleCnt := 0#32, fsm := .settle }, inputs := s.inputs.tail, cycle := s.cycle + 1
          trace := ⟨s.cycle, .tx s.regs.ackR⟩ :: s.trace }
      else { s with inputs := s.inputs.tail, cycle := s.cycle + 1 })

/-- The LINK_WAIT arm (R138): `link_err` wins over `link_up`. -/
def Obligations.LinkWaitArm : Prop :=
  ∀ s : State, s.cfg.wf = true → s.now.rst = false → s.regs.fsm = .linkWait →
    step s = .next
      { s with
        regs :=
          if s.now.linkErr = true then { s.regs with fsm := .fatal }
          else if s.now.linkUp = true then { s.regs with fsm := .awaitFrame }
          else s.regs
        inputs := s.inputs.tail, cycle := s.cycle + 1 }

/-- The SETTLE arm (R147). That `settle_cnt` wraps at 2^32 where it has passed SETTLE_CYCLES, which no run reaches, is the
model's reading (log 16). -/
def Obligations.SettleArm : Prop :=
  ∀ s : State, s.cfg.wf = true → s.now.rst = false → s.regs.fsm = .settle →
    step s = .next
      { s with
        regs :=
          if s.regs.settleCnt.toNat = s.cfg.settleCycles - 1 then { s.regs with fsm := .maybeCommit }
          else { s.regs with settleCnt := s.regs.settleCnt + 1#32 }
        inputs := s.inputs.tail, cycle := s.cycle + 1 }

/-- The MAYBE_COMMIT arm (R148). -/
def Obligations.MaybeCommitArm : Prop :=
  ∀ s : State, s.cfg.wf = true → s.now.rst = false → s.regs.fsm = .maybeCommit →
    step s = .next
      { s with
        regs :=
          if s.regs.lastValid = true ∧ s.regs.curPri = s.regs.lastPri ∧ s.regs.curPw = s.regs.lastPw
          then { s.regs with fsm := .awaitFrame }
          else { s.regs with widx := 0#2, fsm := .commitWrite }
        inputs := s.inputs.tail, cycle := s.cycle + 1 }

/-- The COLD_START arm (R98). -/
def Obligations.ColdStartArm : Prop :=
  ∀ s : State, s.cfg.wf = true → s.now.rst = false → s.regs.fsm = .coldStart →
    step s = .next
      (if s.now.wrReady = true then
        { s with
          regs :=
            if s.regs.widx = 3#2 then { s.regs with widx := 0#2, fsm := .linkWait }
            else { s.regs with widx := s.regs.widx + 1#2 }
          mem := s.mem.write32 s.out.wrAddr s.out.wrData
          inputs := s.inputs.tail, cycle := s.cycle + 1
          trace := ⟨s.cycle, .wr s.out.wrAddr s.out.wrData⟩ :: s.trace }
      else { s with inputs := s.inputs.tail, cycle := s.cycle + 1 })

/-- The COMMIT_WRITE arm (R97). -/
def Obligations.CommitWriteArm : Prop :=
  ∀ s : State, s.cfg.wf = true → s.now.rst = false → s.regs.fsm = .commitWrite →
    step s = .next
      (if s.now.wrReady = true then
        { s with
          regs :=
            if s.regs.widx = 3#2 then
              { s.regs with
                lastPri := s.regs.curPri, lastPw := s.regs.curPw, lastValid := true
                widx := 0#2, fsm := .awaitFrame }
            else { s.regs with widx := s.regs.widx + 1#2 }
          mem := s.mem.write32 s.out.wrAddr s.out.wrData
          inputs := s.inputs.tail, cycle := s.cycle + 1
          trace := ⟨s.cycle, .wr s.out.wrAddr s.out.wrData⟩ :: s.trace }
      else { s with inputs := s.inputs.tail, cycle := s.cycle + 1 })

/-! ## Invariants that every step keeps -/

/-- I1 to I6 of R44 are kept by every step, from every state that meets them. -/
def Obligations.RegisterInvariantIsKept : Prop :=
  ∀ s t : State, s.Inv → step s = .next t → t.Inv

/-- I1 to I6 of R44 hold right after reset, for all parameters and inputs. -/
def Obligations.RegisterInvariantHoldsAtReset : Prop :=
  ∀ (p : Config.Params) (ins : List Config.Inputs), (State.resetWith p ins).Inv

/-- The bus keeps the canonical form of the model's own representation (log 6). -/
def Obligations.CanonicalBusIsKept : Prop :=
  ∀ s t : State, Memory.wf s.mem = true → step s = .next t → Memory.wf t.mem = true

/-- Events are totally ordered by the cycle in which they fire (R60): the cycles of the trace, a field of the model's own
(log 7), fall strictly from newest to oldest and lie in the past, and every step keeps that. -/
def Obligations.EventOrderIsKept : Prop :=
  ∀ s t : State, traceOrdered s.cycle s.trace → step s = .next t → traceOrdered t.cycle t.trace

/-- The order of events holds right after reset, for all parameters and inputs. -/
def Obligations.EventOrderHoldsAtReset : Prop :=
  ∀ (p : Config.Params) (ins : List Config.Inputs),
    traceOrdered (State.resetWith p ins).cycle (State.resetWith p ins).trace

/-! ## Rules about the whole machine -/

/-- Who writes what (R43): outside reset, a register changes only in the arms listed for it; LastCommitted changes only
when the fourth write of COMMIT_WRITE fires, and then takes the pair just written (R150). -/
def Obligations.RegistersChangeOnlyInTheirArms : Prop :=
  ∀ s t : State, s.now.rst = false → step s = .next t →
    (s.regs.fsm ≠ .awaitFrame → t.regs.buf = s.regs.buf ∧ t.regs.cnt = s.regs.cnt) ∧
    (s.regs.fsm ≠ .decoding → t.regs.ackR = s.regs.ackR) ∧
    ((¬ ∃ pri pw, s.regs.fsm = .decoding ∧ verdict s.regs.buf = .accepted pri pw) →
      t.regs.curPri = s.regs.curPri ∧ t.regs.curPw = s.regs.curPw) ∧
    (s.regs.fsm ∉ [Fsm.replyOk, .settle] → t.regs.settleCnt = s.regs.settleCnt) ∧
    (s.regs.fsm ∉ [Fsm.coldStart, .maybeCommit, .commitWrite] → t.regs.widx = s.regs.widx) ∧
    (if s.regs.fsm = .commitWrite ∧ s.now.wrReady = true ∧ s.regs.widx = 3#2 then
      t.regs.lastValid = true ∧ t.regs.lastPri = s.regs.curPri ∧ t.regs.lastPw = s.regs.curPw
    else
      t.regs.lastValid = s.regs.lastValid ∧ t.regs.lastPri = s.regs.lastPri ∧ t.regs.lastPw = s.regs.lastPw)

/-- Only COLD_START and COMMIT_WRITE change the bus (an inference of R102's own), and no step changes a byte outside REG2 to REG5 (R39). -/
def Obligations.OnlyTheFourRegistersAreWritten : Prop :=
  ∀ s t : State, step s = .next t →
    (s.regs.fsm ≠ .coldStart → s.regs.fsm ≠ .commitWrite → t.mem = s.mem) ∧
    ∀ a : Nat, ¬ (s.cfg.waveBase + 0x04 ≤ a ∧ a < s.cfg.waveBase + 0x14) → t.mem.read a = s.mem.read a

/-- The inputs a state does not use have no effect: `link_up` and `link_err` outside LINK_WAIT (R139), `rx_data` unless RX
fires (R23), and, by inference from R25 to R28 and the arms of R145, `rx_valid` outside AWAIT_FRAME, `tx_ready` outside the
replies, `wr_ready` outside the writes. -/
def Obligations.UnsampledInputsHaveNoEffect : Prop :=
  ∀ (s : State) (i j : Config.Inputs) (rest : List Config.Inputs), i.rst = j.rst →
    (s.regs.fsm = .linkWait → i.linkUp = j.linkUp ∧ i.linkErr = j.linkErr) →
    (s.regs.fsm = .awaitFrame → i.rxValid = j.rxValid ∧ (i.rxValid = true → i.rxData = j.rxData)) →
    (s.regs.fsm = .replyErr ∨ s.regs.fsm = .replyOk → i.txReady = j.txReady) →
    (s.regs.fsm = .coldStart ∨ s.regs.fsm = .commitWrite → i.wrReady = j.wrReady) →
    step { s with inputs := i :: rest } = step { s with inputs := j :: rest }

/-- A stalled response or write stays on its port unchanged: valid and data are held until the transfer (R135, R97). -/
def Obligations.StalledOffersAreHeld : Prop :=
  ∀ s t : State, step s = .next t → s.now.rst = false → t.now.rst = false →
    (s.out.txValid = true → s.now.txReady = false → t.out.txValid = true ∧ t.out.txData = s.out.txData) ∧
    (s.out.wrValid = true → s.now.wrReady = false →
      t.out.wrValid = true ∧ t.out.wrAddr = s.out.wrAddr ∧ t.out.wrData = s.out.wrData)

/-! ## Runs -/

/-- FATAL is left only by reset (R153, R175): without reset nothing ever changes there. -/
def Obligations.FatalIsLeftOnlyByReset : Prop :=
  ∀ (n : Nat) (s : State), s.cfg.wf = true → s.regs.fsm = .fatal → s.noReset n →
    ∃ t : State, Sys2Proof.core.run n s = .next t ∧ t.regs = s.regs ∧ t.mem = s.mem ∧ t.trace = s.trace

/-- A frame is the next nine bytes taken (R130, R132): offered one a cycle, they fill `buf` in order and start DECODING,
whatever their values and the other inputs. -/
def Obligations.NineBytesMakeAFrame : Prop :=
  ∀ (s : State) (f : Frame) (ins rest : List Config.Inputs),
    s.cfg.wf = true → s.regs.fsm = .awaitFrame → s.regs.cnt = 0#4 →
    (∀ i ∈ ins, i.rst = false ∧ i.rxValid = true) → ins.map Config.Inputs.rxData = f.toBytes →
    s.inputs = ins ++ rest →
    ∃ t : State, Sys2Proof.core.run 9 s = .next t ∧
      t.regs = { s.regs with buf := f, cnt := 0#4, fsm := .decoding } ∧ t.inputs = rest ∧ t.mem = s.mem ∧
      t.events = s.events ++ f.toBytes.map .rx

/-- SETTLE lasts exactly SETTLE_CYCLES cycles, whatever the inputs except `rst` (R147). -/
def Obligations.SettleLastsExactly : Prop :=
  ∀ s : State, s.cfg.wf = true → s.regs.fsm = .settle → s.regs.settleCnt = 0#32 → s.noReset s.cfg.settleCycles →
    (∀ n < s.cfg.settleCycles, ∃ t : State, Sys2Proof.core.run n s = .next t ∧ t.regs.fsm = .settle) ∧
    ∃ t : State, Sys2Proof.core.run s.cfg.settleCycles s = .next t ∧ t.regs.fsm = .maybeCommit

/-- The settle gap (R206): after the acknowledgment fires, SETTLE_CYCLES + 1 cycles pass with no event and no write,
whatever the inputs except `rst`. -/
def Obligations.SettleGapHasNoEvent : Prop :=
  ∀ (n : Nat) (s : State), s.cfg.wf = true → s.regs.fsm = .replyOk → s.fireTx = true → s.noReset (n + 1) →
    n ≤ s.cfg.settleCycles + 1 →
    ∃ t : State, Sys2Proof.core.run (n + 1) s = .next t ∧ t.mem = s.mem ∧
      t.trace = ⟨s.cycle, .tx s.regs.ackR⟩ :: s.trace

/-- The boot (R99, R203, R211): after reset, with every write accepted at once and the link up, the four default words are
written in the first four cycles, in order, and the fifth ends in AWAIT_FRAME with nothing committed. -/
def Obligations.BootWritesTheDefaultImage : Prop :=
  ∀ (p : Config.Params) (i0 i1 i2 i3 i4 : Config.Inputs) (rest : List Config.Inputs), p.wf = true →
    (∀ i ∈ [i0, i1, i2, i3], i.rst = false ∧ i.wrReady = true) →
    i4.rst = false → i4.linkUp = true → i4.linkErr = false →
    ∃ t : State, Sys2Proof.core.run 5 (State.resetWith p (i0 :: i1 :: i2 :: i3 :: i4 :: rest)) = .next t ∧
      t.regs = { Regs.reset with fsm := .awaitFrame } ∧ t.inputs = rest ∧
      t.ipReg 0#2 = some 400#32 ∧ t.ipReg 1#2 = some 100#32 ∧ t.ipReg 2#2 = some 50000#32 ∧
      t.ipReg 3#2 = some 300#32 ∧
      t.trace =
        [⟨3, .wr (p.waveBase + 0x10) 300#32⟩, ⟨2, .wr (p.waveBase + 0x0C) 50000#32⟩,
         ⟨1, .wr (p.waveBase + 0x08) 100#32⟩, ⟨0, .wr (p.waveBase + 0x04) 400#32⟩]

/-- SETP end to end with a commit (R152, R211): from DECODING, with every handshake met at once, SETTLE_CYCLES + 7 cycles
send 0xA1, wait, write the four words in order and record the pair. -/
def Obligations.SetpCommitsEndToEnd : Prop :=
  ∀ (s : State) (pri pw : U16), s.cfg.wf = true → s.regs.fsm = .decoding →
    verdict s.regs.buf = .accepted pri pw →
    ¬ (s.regs.lastValid = true ∧ s.regs.lastPri = pri ∧ s.regs.lastPw = pw) →
    s.eager (s.cfg.settleCycles + 7) →
    ∃ t : State, Sys2Proof.core.run (s.cfg.settleCycles + 7) s = .next t ∧
      t.regs =
        { s.regs with
          fsm := .awaitFrame, ackR := 0xA1#8, curPri := pri, curPw := pw, lastPri := pri, lastPw := pw
          lastValid := true, settleCnt := BitVec.ofNat 32 (s.cfg.settleCycles - 1), widx := 0#2 } ∧
      (t.ipReg 0#2).map BitVec.toNat = some (pw.toNat * 100 + 200) ∧
      (t.ipReg 1#2).map BitVec.toNat = some 100 ∧
      (t.ipReg 2#2).map BitVec.toNat = some (pri.toNat * 100) ∧
      (t.ipReg 3#2).map BitVec.toNat = some (pw.toNat * 100 + 100) ∧
      t.events = s.events ++ .tx 0xA1#8 :: programEvents s.cfg pri pw

/-- SETP end to end for the pair committed last (R148, R152, R211): 0xA1, the full wait, no write, SETTLE_CYCLES + 3
cycles. -/
def Obligations.DuplicateSetpWritesNothing : Prop :=
  ∀ (s : State) (pri pw : U16), s.cfg.wf = true → s.regs.fsm = .decoding →
    verdict s.regs.buf = .accepted pri pw →
    s.regs.lastValid = true → s.regs.lastPri = pri → s.regs.lastPw = pw →
    s.eager (s.cfg.settleCycles + 3) →
    ∃ t : State, Sys2Proof.core.run (s.cfg.settleCycles + 3) s = .next t ∧
      t.regs =
        { s.regs with
          fsm := .awaitFrame, ackR := 0xA1#8, curPri := pri, curPw := pw
          settleCnt := BitVec.ofNat 32 (s.cfg.settleCycles - 1) } ∧
      t.mem = s.mem ∧ t.events = s.events ++ [.tx 0xA1#8]

/-- A rejected frame costs two cycles and changes no state but `buf`, `ack_r` and `state` (R151, R173, R174, R211). -/
def Obligations.RejectionLeavesEverythingElse : Prop :=
  ∀ (s : State) (k : Reject), s.cfg.wf = true → s.regs.fsm = .decoding → verdict s.regs.buf = .rejected k →
    s.eager 2 →
    ∃ t : State, Sys2Proof.core.run 2 s = .next t ∧
      t.regs = { s.regs with fsm := .awaitFrame, ackR := k.code } ∧ t.mem = s.mem ∧
      t.events = s.events ++ [.tx k.code]

/-- The untimed abstraction (R155): on every run from reset without a further reset, for every input sequence, the untimed
trace is an initial part of R155's trace of the bytes taken, and all of it whenever the block awaits a byte. -/
def Obligations.RunsRefineTheSourceLoop : Prop :=
  ∀ (p : Config.Params) (ins : List Config.Inputs) (n : Nat), p.wf = true → (State.resetWith p ins).noReset n →
    ∃ t : State, Sys2Proof.core.run n (State.resetWith p ins) = .next t ∧
      t.events <+: blockTrace p t.bytesTaken ∧
      (t.regs.fsm = .awaitFrame → t.events = blockTrace p t.bytesTaken)
end

