-- ==== Sys2Proof/Laws/Codec.lean ====
section
/-! SUPPORT. The operand bytes and the frame of SETP. -/

namespace Sys2Proof

@[simp] theorem hiByte_u16OfBytes (h l : Byte) : hiByte (u16OfBytes h l) = h := by
  ext i hi
  rw [hiByte, BitVec.getElem_extractLsb']
  exact (BitVec.getLsbD_append (x := h) (y := l)).trans (by simp [hi])

@[simp] theorem loByte_u16OfBytes (h l : Byte) : loByte (u16OfBytes h l) = l := by
  ext i hi
  rw [loByte, BitVec.getElem_extractLsb']
  exact (BitVec.getLsbD_append (x := h) (y := l)).trans (by simp [hi])

@[simp] theorem u16OfBytes_bytes (v : U16) : u16OfBytes (hiByte v) (loByte v) = v := by
  simp only [hiByte, loByte, u16OfBytes]
  ext i hi
  simp only [BitVec.getElem_append, BitVec.getElem_extractLsb']
  split_ifs <;> (rw [← BitVec.getLsbD_eq_getElem]; congr 1; omega)

@[simp] theorem setpFrame_pw (pri pw : U16) (k : Byte) : (setpFrame pri pw k).pw = pw := u16OfBytes_bytes pw

@[simp] theorem setpFrame_pri (pri pw : U16) (k : Byte) : (setpFrame pri pw k).pri = pri := u16OfBytes_bytes pri

/-- The checksum as R111 writes it out. -/
theorem checksum_eq (f : Frame) : checksum f = f.cmd ^^^ f.pwHi ^^^ f.pwLo ^^^ f.priHi := by
  simp [checksum, Frame.toBytes, Config.CHK_FIRST, Config.CHK_LAST]

/-- The checksum byte of SETP is R80's `K = 0x01 ^ W[15:8] ^ W[7:0] ^ P[15:8]`. -/
theorem setpChecksum_eq (pri pw : U16) : setpChecksum pri pw = 0x01#8 ^^^ hiByte pw ^^^ loByte pw ^^^ hiByte pri :=
  checksum_eq _

/-- Over a SETP frame R111's checksum is R80's, whatever its byte 7. -/
theorem checksum_setpFrame (pri pw : U16) (k : Byte) : checksum (setpFrame pri pw k) = setpChecksum pri pw :=
  (checksum_eq _).trans (checksum_eq _).symm

/-- The bytes of a frame make that frame. -/
@[simp] theorem Frame.ofBytes_toBytes (f : Frame) : Frame.ofBytes f.toBytes = some f := rfl

/-- Only a frame's own bytes make it. -/
theorem Frame.toBytes_of_ofBytes {bs : List Byte} {f : Frame} (h : Frame.ofBytes bs = some f) : f.toBytes = bs := by
  unfold Frame.ofBytes at h
  split at h
  · cases h; rfl
  · cases h

/-- R119: the verdict on a SETP frame is decided by its checksum byte. -/
theorem verdict_setpFrame (pri pw : U16) (k : Byte) :
    verdict (setpFrame pri pw k) =
      if k = setpChecksum pri pw then .accepted pri pw else .rejected .checksum := by
  simp only [verdict, checksum_setpFrame, setpFrame_pri, setpFrame_pw]
  simp [setpFrame, eq_comm]

/-- An accepted frame is the SETP frame of its operands and checksum byte. -/
theorem eq_setpFrame_of_accepted {f : Frame} {pri pw : U16} (h : verdict f = .accepted pri pw) :
    f = setpFrame pri pw f.chk ∧ f.chk = setpChecksum pri pw := by
  unfold verdict at h
  split_ifs at h with h1 h2 h3 h4 h5
  simp only [Verdict.accepted.injEq] at h
  obtain ⟨rfl, rfl⟩ := h
  simp only [not_not] at h1 h2 h3 h4 h5
  have e : f = setpFrame f.pri f.pw f.chk := by
    obtain ⟨⟩ := f
    simp_all [setpFrame, Frame.pri, Frame.pw]
  refine ⟨e, ?_⟩
  rw [← h5]
  conv_lhs => rw [e, checksum_setpFrame]

/-- What decoding a frame gives (R76). -/
theorem decodeFrame_cases (f : Frame) :
    (∃ pri pw, verdict f = .accepted pri pw ∧ decodeFrame f = .setp pri pw f.chk) ∨
    (∃ k, verdict f = .rejected k ∧ decodeFrame f = Reject.instr k) := by
  cases h : verdict f with
  | accepted pri pw => exact .inl ⟨pri, pw, rfl, by simp [decodeFrame, h]⟩
  | rejected k => exact .inr ⟨k, rfl, by simp [decodeFrame, h]⟩

/-- The code of a rejection decodes to its row (R73, R170). -/
@[simp] theorem decodeResp_code (k : Reject) : decodeResp k.code = some k.instr := by cases k <;> rfl

/-- A response byte that decodes is the only byte of its item. -/
theorem encode_of_decodeResp {b : Byte} {i : Instr} (h : decodeResp b = some i) :
    i.format = .resp ∧ encode i = [b] := by
  unfold decodeResp at h
  split_ifs at h with h1 h2 h3 h4 h5 h6 <;> (simp only [Option.some.injEq] at h; subst h; subst_vars; exact ⟨rfl, rfl⟩)

/-- An offset byte that decodes is the only byte of its item (R74). -/
theorem encode_of_decodeRegbus {b : Byte} {i : Instr} (h : decodeRegbus b.toNat = some i) :
    i.format = .regbus ∧ encode i = [b] := by
  have hb : ∀ n, b.toNat = n → BitVec.ofNat 8 n = b := by rintro n rfl; simp
  unfold decodeRegbus at h
  split_ifs at h with h1 h2 h3 h4 <;> (simp only [Option.some.injEq] at h; subst h; refine ⟨rfl, ?_⟩)
  · rw [encode, hb _ h1]
  · rw [encode, hb _ h2]
  · rw [encode, hb _ h3]
  · rw [encode, hb _ h4]

/-- The value of a big-endian pair (R53). -/
theorem u16OfBytes_toNat (h l : Byte) : (u16OfBytes h l).toNat = h.toNat * 256 + l.toNat := by
  refine (BitVec.toNat_append h l).trans ?_
  rw [← Nat.shiftLeft_add_eq_or_of_lt l.isLt, Nat.shiftLeft_eq]

end Sys2Proof
end

