-- ==== Sys2Proof/Laws/State.lean ====
section
/-! SUPPORT. One lemma per field per update of the state, each true by rfl, so that no later proof unfolds an update. -/

namespace Sys2Proof.Machine

@[simp] theorem State.edge_regs (s : State) (r : Regs) : (s.edge r).regs = r := rfl
@[simp] theorem State.edge_mem (s : State) (r : Regs) : (s.edge r).mem = s.mem := rfl
@[simp] theorem State.edge_cfg (s : State) (r : Regs) : (s.edge r).cfg = s.cfg := rfl
@[simp] theorem State.edge_inputs (s : State) (r : Regs) : (s.edge r).inputs = s.inputs.tail := rfl
@[simp] theorem State.edge_cycle (s : State) (r : Regs) : (s.edge r).cycle = s.cycle + 1 := rfl
@[simp] theorem State.edge_trace (s : State) (r : Regs) : (s.edge r).trace = s.trace := rfl

@[simp] theorem State.hold_regs (s : State) : (s.hold).regs = s.regs := rfl
@[simp] theorem State.hold_mem (s : State) : (s.hold).mem = s.mem := rfl
@[simp] theorem State.hold_cfg (s : State) : (s.hold).cfg = s.cfg := rfl
@[simp] theorem State.hold_inputs (s : State) : (s.hold).inputs = s.inputs.tail := rfl
@[simp] theorem State.hold_cycle (s : State) : (s.hold).cycle = s.cycle + 1 := rfl
@[simp] theorem State.hold_trace (s : State) : (s.hold).trace = s.trace := rfl

@[simp] theorem State.emit_regs (s : State) (e : Event) : (s.emit e).regs = s.regs := rfl
@[simp] theorem State.emit_mem (s : State) (e : Event) : (s.emit e).mem = s.mem := rfl
@[simp] theorem State.emit_cfg (s : State) (e : Event) : (s.emit e).cfg = s.cfg := rfl
@[simp] theorem State.emit_inputs (s : State) (e : Event) : (s.emit e).inputs = s.inputs := rfl
@[simp] theorem State.emit_cycle (s : State) (e : Event) : (s.emit e).cycle = s.cycle := rfl
@[simp] theorem State.emit_trace (s : State) (e : Event) : (s.emit e).trace = ⟨s.cycle, e⟩ :: s.trace := rfl

@[simp] theorem State.busWrite_regs (s : State) (a : Nat) (v : U32) : (s.busWrite a v).regs = s.regs := rfl
@[simp] theorem State.busWrite_mem (s : State) (a : Nat) (v : U32) : (s.busWrite a v).mem = s.mem.write32 a v := rfl
@[simp] theorem State.busWrite_cfg (s : State) (a : Nat) (v : U32) : (s.busWrite a v).cfg = s.cfg := rfl
@[simp] theorem State.busWrite_inputs (s : State) (a : Nat) (v : U32) : (s.busWrite a v).inputs = s.inputs := rfl
@[simp] theorem State.busWrite_cycle (s : State) (a : Nat) (v : U32) : (s.busWrite a v).cycle = s.cycle := rfl
@[simp] theorem State.busWrite_trace (s : State) (a : Nat) (v : U32) : (s.busWrite a v).trace = ⟨s.cycle, .wr a v⟩ :: s.trace := rfl

@[simp] theorem State.resetEdge_regs (s : State) : (s.resetEdge).regs = Regs.reset := rfl
@[simp] theorem State.resetEdge_mem (s : State) : (s.resetEdge).mem = s.mem := rfl
@[simp] theorem State.resetEdge_cfg (s : State) : (s.resetEdge).cfg = s.cfg := rfl
@[simp] theorem State.resetEdge_inputs (s : State) : (s.resetEdge).inputs = s.inputs.tail := rfl
@[simp] theorem State.resetEdge_cycle (s : State) : (s.resetEdge).cycle = s.cycle + 1 := rfl
@[simp] theorem State.resetEdge_trace (s : State) : (s.resetEdge).trace = s.trace := rfl

@[simp] theorem Regs.takeRejection_fsm (r : Regs) (k : Byte) : (r.takeRejection k).fsm = .replyErr := rfl
@[simp] theorem Regs.takeRejection_buf (r : Regs) (k : Byte) : (r.takeRejection k).buf = r.buf := rfl
@[simp] theorem Regs.takeRejection_cnt (r : Regs) (k : Byte) : (r.takeRejection k).cnt = r.cnt := rfl
@[simp] theorem Regs.takeRejection_ackR (r : Regs) (k : Byte) : (r.takeRejection k).ackR = k := rfl
@[simp] theorem Regs.takeRejection_curPri (r : Regs) (k : Byte) : (r.takeRejection k).curPri = r.curPri := rfl
@[simp] theorem Regs.takeRejection_curPw (r : Regs) (k : Byte) : (r.takeRejection k).curPw = r.curPw := rfl
@[simp] theorem Regs.takeRejection_lastValid (r : Regs) (k : Byte) : (r.takeRejection k).lastValid = r.lastValid := rfl
@[simp] theorem Regs.takeRejection_lastPri (r : Regs) (k : Byte) : (r.takeRejection k).lastPri = r.lastPri := rfl
@[simp] theorem Regs.takeRejection_lastPw (r : Regs) (k : Byte) : (r.takeRejection k).lastPw = r.lastPw := rfl
@[simp] theorem Regs.takeRejection_settleCnt (r : Regs) (k : Byte) : (r.takeRejection k).settleCnt = r.settleCnt := rfl
@[simp] theorem Regs.takeRejection_widx (r : Regs) (k : Byte) : (r.takeRejection k).widx = r.widx := rfl

@[simp] theorem Regs.returnFromRejection_fsm (r : Regs) : (r.returnFromRejection).fsm = .awaitFrame := rfl
@[simp] theorem Regs.returnFromRejection_buf (r : Regs) : (r.returnFromRejection).buf = r.buf := rfl
@[simp] theorem Regs.returnFromRejection_cnt (r : Regs) : (r.returnFromRejection).cnt = r.cnt := rfl
@[simp] theorem Regs.returnFromRejection_ackR (r : Regs) : (r.returnFromRejection).ackR = r.ackR := rfl
@[simp] theorem Regs.returnFromRejection_curPri (r : Regs) : (r.returnFromRejection).curPri = r.curPri := rfl
@[simp] theorem Regs.returnFromRejection_curPw (r : Regs) : (r.returnFromRejection).curPw = r.curPw := rfl
@[simp] theorem Regs.returnFromRejection_lastValid (r : Regs) : (r.returnFromRejection).lastValid = r.lastValid := rfl
@[simp] theorem Regs.returnFromRejection_lastPri (r : Regs) : (r.returnFromRejection).lastPri = r.lastPri := rfl
@[simp] theorem Regs.returnFromRejection_lastPw (r : Regs) : (r.returnFromRejection).lastPw = r.lastPw := rfl
@[simp] theorem Regs.returnFromRejection_settleCnt (r : Regs) : (r.returnFromRejection).settleCnt = r.settleCnt := rfl
@[simp] theorem Regs.returnFromRejection_widx (r : Regs) : (r.returnFromRejection).widx = r.widx := rfl

@[simp] theorem Regs.takeFatal_fsm (r : Regs) : (r.takeFatal).fsm = .fatal := rfl
@[simp] theorem Regs.takeFatal_buf (r : Regs) : (r.takeFatal).buf = r.buf := rfl
@[simp] theorem Regs.takeFatal_cnt (r : Regs) : (r.takeFatal).cnt = r.cnt := rfl
@[simp] theorem Regs.takeFatal_ackR (r : Regs) : (r.takeFatal).ackR = r.ackR := rfl
@[simp] theorem Regs.takeFatal_curPri (r : Regs) : (r.takeFatal).curPri = r.curPri := rfl
@[simp] theorem Regs.takeFatal_curPw (r : Regs) : (r.takeFatal).curPw = r.curPw := rfl
@[simp] theorem Regs.takeFatal_lastValid (r : Regs) : (r.takeFatal).lastValid = r.lastValid := rfl
@[simp] theorem Regs.takeFatal_lastPri (r : Regs) : (r.takeFatal).lastPri = r.lastPri := rfl
@[simp] theorem Regs.takeFatal_lastPw (r : Regs) : (r.takeFatal).lastPw = r.lastPw := rfl
@[simp] theorem Regs.takeFatal_settleCnt (r : Regs) : (r.takeFatal).settleCnt = r.settleCnt := rfl
@[simp] theorem Regs.takeFatal_widx (r : Regs) : (r.takeFatal).widx = r.widx := rfl

@[simp] theorem Regs.accept_fsm (r : Regs) (pri pw : U16) : (r.accept pri pw).fsm = .replyOk := rfl
@[simp] theorem Regs.accept_buf (r : Regs) (pri pw : U16) : (r.accept pri pw).buf = r.buf := rfl
@[simp] theorem Regs.accept_cnt (r : Regs) (pri pw : U16) : (r.accept pri pw).cnt = r.cnt := rfl
@[simp] theorem Regs.accept_ackR (r : Regs) (pri pw : U16) : (r.accept pri pw).ackR = Config.ACK_SUCCESS := rfl
@[simp] theorem Regs.accept_curPri (r : Regs) (pri pw : U16) : (r.accept pri pw).curPri = pri := rfl
@[simp] theorem Regs.accept_curPw (r : Regs) (pri pw : U16) : (r.accept pri pw).curPw = pw := rfl
@[simp] theorem Regs.accept_lastValid (r : Regs) (pri pw : U16) : (r.accept pri pw).lastValid = r.lastValid := rfl
@[simp] theorem Regs.accept_lastPri (r : Regs) (pri pw : U16) : (r.accept pri pw).lastPri = r.lastPri := rfl
@[simp] theorem Regs.accept_lastPw (r : Regs) (pri pw : U16) : (r.accept pri pw).lastPw = r.lastPw := rfl
@[simp] theorem Regs.accept_settleCnt (r : Regs) (pri pw : U16) : (r.accept pri pw).settleCnt = r.settleCnt := rfl
@[simp] theorem Regs.accept_widx (r : Regs) (pri pw : U16) : (r.accept pri pw).widx = r.widx := rfl

@[simp] theorem Regs.beginSettle_fsm (r : Regs) : (r.beginSettle).fsm = .settle := rfl
@[simp] theorem Regs.beginSettle_buf (r : Regs) : (r.beginSettle).buf = r.buf := rfl
@[simp] theorem Regs.beginSettle_cnt (r : Regs) : (r.beginSettle).cnt = r.cnt := rfl
@[simp] theorem Regs.beginSettle_ackR (r : Regs) : (r.beginSettle).ackR = r.ackR := rfl
@[simp] theorem Regs.beginSettle_curPri (r : Regs) : (r.beginSettle).curPri = r.curPri := rfl
@[simp] theorem Regs.beginSettle_curPw (r : Regs) : (r.beginSettle).curPw = r.curPw := rfl
@[simp] theorem Regs.beginSettle_lastValid (r : Regs) : (r.beginSettle).lastValid = r.lastValid := rfl
@[simp] theorem Regs.beginSettle_lastPri (r : Regs) : (r.beginSettle).lastPri = r.lastPri := rfl
@[simp] theorem Regs.beginSettle_lastPw (r : Regs) : (r.beginSettle).lastPw = r.lastPw := rfl
@[simp] theorem Regs.beginSettle_settleCnt (r : Regs) : (r.beginSettle).settleCnt = 0#32 := rfl
@[simp] theorem Regs.beginSettle_widx (r : Regs) : (r.beginSettle).widx = r.widx := rfl

@[simp] theorem Regs.recordCommit_fsm (r : Regs) : (r.recordCommit).fsm = r.fsm := rfl
@[simp] theorem Regs.recordCommit_buf (r : Regs) : (r.recordCommit).buf = r.buf := rfl
@[simp] theorem Regs.recordCommit_cnt (r : Regs) : (r.recordCommit).cnt = r.cnt := rfl
@[simp] theorem Regs.recordCommit_ackR (r : Regs) : (r.recordCommit).ackR = r.ackR := rfl
@[simp] theorem Regs.recordCommit_curPri (r : Regs) : (r.recordCommit).curPri = r.curPri := rfl
@[simp] theorem Regs.recordCommit_curPw (r : Regs) : (r.recordCommit).curPw = r.curPw := rfl
@[simp] theorem Regs.recordCommit_lastValid (r : Regs) : (r.recordCommit).lastValid = true := rfl
@[simp] theorem Regs.recordCommit_lastPri (r : Regs) : (r.recordCommit).lastPri = r.curPri := rfl
@[simp] theorem Regs.recordCommit_lastPw (r : Regs) : (r.recordCommit).lastPw = r.curPw := rfl
@[simp] theorem Regs.recordCommit_settleCnt (r : Regs) : (r.recordCommit).settleCnt = r.settleCnt := rfl
@[simp] theorem Regs.recordCommit_widx (r : Regs) : (r.recordCommit).widx = r.widx := rfl

end Sys2Proof.Machine
end

