-- ==== Sys2Proof/Laws/Memory.lean ====
section
/-! SUPPORT. The register bus as canonical memory: what a write leaves to be read, and that every write keeps the
canonical form. -/

namespace Sys2Proof.Machine

@[simp] theorem Memory.read_nil (a : Nat) : Memory.read [] a = none := rfl

/-- A read after a write: the byte written at its address, the old byte elsewhere. -/
theorem Memory.read_write (m : Memory) (a b : Nat) (v : Byte) :
    (m.write a v).read b = if b = a then some v else m.read b := by
  induction m with
  | nil => simp [Memory.write, Memory.read, eq_comm]
  | cons c m ih =>
    obtain ⟨k, w⟩ := c
    by_cases h1 : a < k
    · rw [Memory.write, if_pos h1]
      by_cases h : b = a
      · simp [Memory.read, h]
      · simp [Memory.read, h, Ne.symm h]
    by_cases h2 : a = k
    · subst h2
      rw [Memory.write, if_neg h1, if_pos rfl]
      by_cases h : b = a
      · simp [Memory.read, h]
      · simp [Memory.read, h, Ne.symm h]
    · rw [Memory.write, if_neg h1, if_neg h2, Memory.read, Memory.read, ih]
      by_cases h : b = a
      · subst h; simp [Ne.symm h2]
      · simp [h]

/-- Writing keeps a rising list rising, and starts it no lower than the lesser of its head and the address. -/
theorem Memory.wf_cons_write {k : Nat} {w : Byte} {m : Memory} {a : Nat} (v : Byte) (ha : k < a)
    (h : Memory.wf ((k, w) :: m) = true) : Memory.wf ((k, w) :: m.write a v) = true := by
  induction m generalizing k w with
  | nil => simp [Memory.write, Memory.wf, ha]
  | cons c m ih =>
    obtain ⟨k', w'⟩ := c
    simp only [Memory.wf, Bool.and_eq_true, decide_eq_true_eq] at h
    simp only [Memory.write]
    split_ifs with h1 h2
    · simp [Memory.wf, ha, h1, h.2]
    · subst h2
      refine Bool.and_eq_true_iff.mpr ⟨by simpa using ha, ?_⟩
      have h2 := h.2
      cases m with
      | nil => rfl
      | cons d m => simpa [Memory.wf] using h2
    · exact Bool.and_eq_true_iff.mpr ⟨by simpa using h.1, ih (by omega) h.2⟩

/-- A byte write keeps the canonical form. -/
theorem Memory.wf_write {m : Memory} (a : Nat) (v : Byte) (h : Memory.wf m = true) :
    Memory.wf (m.write a v) = true := by
  cases m with
  | nil => rfl
  | cons c m =>
    obtain ⟨k, w⟩ := c
    simp only [Memory.write]
    split_ifs with h1 h2
    · exact Bool.and_eq_true_iff.mpr ⟨by simpa using h1, h⟩
    · subst h2
      cases m with
      | nil => rfl
      | cons d m => simpa [Memory.wf] using h
    · exact Memory.wf_cons_write v (by omega) h

/-- A word write keeps the canonical form. -/
theorem Memory.wf_write32 {m : Memory} (a : Nat) (v : U32) (h : Memory.wf m = true) :
    Memory.wf (m.write32 a v) = true :=
  wf_write _ _ (wf_write _ _ (wf_write _ _ (wf_write _ _ h)))

/-- The bus right after reset has the canonical form. -/
theorem reset_mem_wf (p : Config.Params) (ins : List Config.Inputs) : Memory.wf (State.resetWith p ins).mem = true := rfl

/-- What a word write leaves at every address: its four lanes, and the old bytes elsewhere (R54). -/
theorem Memory.read_write32 (m : Memory) (a b : Nat) (v : U32) :
    (m.write32 a v).read b = if a ≤ b ∧ b < a + 4 then some (lane v (b - a)) else m.read b := by
  simp only [Memory.write32, Memory.read_write]
  by_cases h : a ≤ b ∧ b < a + 4
  · obtain ⟨h1, h2⟩ := h
    obtain rfl | rfl | rfl | rfl : b = a ∨ b = a + 1 ∨ b = a + 2 ∨ b = a + 3 := by omega
    all_goals simp
  · rw [if_neg h]
    rw [if_neg (by omega), if_neg (by omega), if_neg (by omega), if_neg (by omega)]

/-- The four lanes make the word (R54). -/
theorem ofLanes_lane (v : U32) : ofLanes (lane v 0) (lane v 1) (lane v 2) (lane v 3) = v := by
  simp only [ofLanes, lane]
  ext i hi
  simp only [BitVec.getElem_append, BitVec.getElem_extractLsb']
  split_ifs <;> (rw [← BitVec.getLsbD_eq_getElem]; congr 1; omega)

/-- A word read after a word write at the same address. -/
theorem Memory.read32_write32 (m : Memory) (a : Nat) (v : U32) : (m.write32 a v).read32 a = some v := by
  simp [Memory.read32, Memory.read_write32, ofLanes_lane]

/-- A word write leaves every disjoint word. -/
theorem Memory.read32_write32_disjoint (m : Memory) {a b : Nat} (v : U32) (h : b + 4 ≤ a ∨ a + 4 ≤ b) :
    (m.write32 a v).read32 b = m.read32 b := by
  simp only [Memory.read32, Memory.read_write32]
  rw [if_neg (by omega), if_neg (by omega), if_neg (by omega), if_neg (by omega)]

end Sys2Proof.Machine
end

