-- ==== Sys2Proof/Laws/Ops.lean ====
section
/-! SUPPORT. What each shared operation does, once: the sampled inputs and fires, the image and address of a write, the
response, rejection and write operations. -/

namespace Sys2Proof.Machine

/-! ## Inputs and fires -/

@[simp] theorem State.now_cons (s : State) (i : Config.Inputs) (is : List Config.Inputs) :
    State.now { s with inputs := i :: is } = i := rfl

/-- The sampled inputs are the head of the listed ones. -/
theorem State.now_of_inputs {s : State} {i : Config.Inputs} {is : List Config.Inputs} (h : s.inputs = i :: is) :
    s.now = i := by simp [State.now, h]

/-- RX fires exactly in AWAIT_FRAME, outside reset, on a byte offered (R25, R26). -/
theorem State.fireRx_iff (s : State) :
    s.fireRx = true ↔ s.now.rst = false ∧ s.regs.fsm = .awaitFrame ∧ s.now.rxValid = true := by
  simp [State.fireRx, State.out, outputs]; tauto

/-- TX fires exactly in REPLY_ERR and REPLY_OK, outside reset, when the sink is ready (R25, R27). -/
theorem State.fireTx_iff (s : State) :
    s.fireTx = true ↔
      s.now.rst = false ∧ (s.regs.fsm = .replyErr ∨ s.regs.fsm = .replyOk) ∧ s.now.txReady = true := by
  simp [State.fireTx, State.out, outputs]; tauto

/-- The write fires exactly in COLD_START and COMMIT_WRITE, outside reset, when the target is ready (R25, R28). -/
theorem State.fireWr_iff (s : State) :
    s.fireWr = true ↔
      s.now.rst = false ∧ (s.regs.fsm = .coldStart ∨ s.regs.fsm = .commitWrite) ∧ s.now.wrReady = true := by
  simp [State.fireWr, State.out, outputs]; tauto

/-- A frame is classified exactly in DECODING, outside reset (R123). -/
theorem State.decodingNow_iff (s : State) :
    s.decodingNow = true ↔ s.now.rst = false ∧ s.regs.fsm = .decoding := by
  simp [State.decodingNow]

@[simp] theorem State.out_txData (s : State) : s.out.txData = s.regs.ackR := rfl
@[simp] theorem State.out_wrAddr (s : State) : s.out.wrAddr = wrAddr s.cfg s.regs.widx := rfl
@[simp] theorem State.out_wrData (s : State) : s.out.wrData = img s.regs.curPri s.regs.curPw s.regs.widx := rfl

/-! ## The image and the address -/

/-- A scaled parameter does not wrap (R92). -/
theorem scaled_toNat (v : U16) (k : Nat) (hk : k ≤ 200) :
    (v.setWidth 32 * BitVec.ofNat 32 Config.SCALE + BitVec.ofNat 32 k).toNat = v.toNat * 100 + k := by
  have := v.isLt
  simp only [BitVec.toNat_add, BitVec.toNat_mul, BitVec.toNat_setWidth, BitVec.toNat_ofNat, Config.SCALE]
  omega

@[simp] theorem img_zero_toNat (pri pw : U16) : (img pri pw 0#2).toNat = pw.toNat * 100 + 200 :=
  scaled_toNat pw 200 (by omega)

@[simp] theorem img_one (pri pw : U16) : img pri pw 1#2 = 100#32 := rfl

@[simp] theorem img_two_toNat (pri pw : U16) : (img pri pw 2#2).toNat = pri.toNat * 100 := by
  simpa [img] using scaled_toNat pri 0 (by omega)

@[simp] theorem img_three_toNat (pri pw : U16) : (img pri pw 3#2).toNat = pw.toNat * 100 + 100 :=
  scaled_toNat pw 100 (by omega)

/-- R25's and R74's `off = 4 * (widx + 1)`. -/
theorem wrOffset_eq (i : BitVec 2) : wrOffset i = 4 * (i.toNat + 1) := by
  have hi := i.isLt
  obtain h | h | h | h : i.toNat = 0 ∨ i.toNat = 1 ∨ i.toNat = 2 ∨ i.toNat = 3 := by omega
  all_goals simp only [wrOffset, h]; rfl

/-- R7's constraints, read off `Params.wf`. -/
theorem wf_iff (p : Config.Params) :
    p.wf = true ↔
      (1 ≤ p.clkHz ∧ p.clkHz ≤ p.settleCycles ∧ p.settleCycles ≤ 2 ^ 32 ∧ 5 ≤ p.addrW ∧
        p.waveBase % 4 = 0 ∧ p.waveBase + 0x13 ≤ 2 ^ p.addrW - 1) := by
  simp only [Config.Params.wf, Config.Params.clockWf, Config.Params.settleWf, Config.Params.widthWf,
    Config.Params.baseWf, Config.SETTLE_SECONDS, Nat.mul_one, Bool.and_eq_true, decide_eq_true_eq, and_assoc]
  exact Iff.rfl

/-- On a legal configuration no write address wraps (R25, R57). -/
theorem wrAddr_of_wf {p : Config.Params} (h : p.wf = true) (i : BitVec 2) :
    wrAddr p i = p.waveBase + 4 * (i.toNat + 1) := by
  have hi := i.isLt
  have hb := ((wf_iff p).mp h).2.2.2.2.2
  have hp : 0 < 2 ^ p.addrW := Nat.pos_of_ne_zero (by simp)
  rw [wrAddr, wrOffset_eq]
  exact Nat.mod_eq_of_lt (by omega)

/-! ## The shared operations of the meanings -/

/-- A response that is offered and taken is sent, else nothing changes. -/
theorem respond_cases (k : Byte) (s : State) :
    (s.fireTx = true ∧ s.regs.ackR = k ∧ respond k s = sendResponse s) ∨
    (¬ (s.fireTx = true ∧ s.regs.ackR = k) ∧ respond k s = s.hold) := by
  by_cases h : s.fireTx = true ∧ s.regs.ackR = k
  · exact .inl ⟨h.1, h.2, by simp [respond, h.1, h.2]⟩
  · exact .inr ⟨h, by simp only [respond, Bool.and_eq_true, beq_iff_eq, if_neg h]⟩

/-- A rejection is recorded in DECODING and is a response elsewhere. -/
theorem reject_cases (k : Reject) (s : State) :
    (s.decodingNow = true ∧ reject k s = s.edge (s.regs.takeRejection k.code)) ∨
    (s.decodingNow = false ∧ reject k s = respond k.code s) := by
  cases h : s.decodingNow <;> simp [reject, h, recordVerdict]

/-- A write that is on the bus and accepted is performed, else nothing changes. -/
theorem writeReg_cases (i : BitVec 2) (s : State) :
    (s.fireWr = true ∧ s.regs.widx = i ∧
      writeReg i s =
        (s.busWrite (wrAddr s.cfg i) (img s.regs.curPri s.regs.curPw i)).edge s.regs.afterWrite) ∨
    (¬ (s.fireWr = true ∧ s.regs.widx = i) ∧ writeReg i s = s.hold) := by
  by_cases h : s.fireWr = true ∧ s.regs.widx = i
  · exact .inl ⟨h.1, h.2, by simp [writeReg, h.1, h.2]⟩
  · exact .inr ⟨h, by simp only [writeReg, Bool.and_eq_true, beq_iff_eq, if_neg h]⟩

@[simp] theorem sendResponse_regs (s : State) : (sendResponse s).regs = s.regs.afterResponse := rfl
@[simp] theorem sendResponse_mem (s : State) : (sendResponse s).mem = s.mem := rfl
@[simp] theorem sendResponse_cfg (s : State) : (sendResponse s).cfg = s.cfg := rfl
@[simp] theorem sendResponse_inputs (s : State) : (sendResponse s).inputs = s.inputs.tail := rfl
@[simp] theorem sendResponse_cycle (s : State) : (sendResponse s).cycle = s.cycle + 1 := rfl
@[simp] theorem sendResponse_trace (s : State) :
    (sendResponse s).trace = ⟨s.cycle, .tx s.regs.ackR⟩ :: s.trace := rfl

/-- Sending leaves all registers but `state` and, for the acknowledgment, `settle_cnt` (R133, R134). -/
theorem Regs.afterResponse_cases (r : Regs) :
    (r.fsm = .replyOk ∧ r.afterResponse = { r with settleCnt := 0#32, fsm := .settle }) ∨
    (r.fsm ≠ .replyOk ∧ r.afterResponse = { r with fsm := .awaitFrame }) := by
  by_cases h : r.fsm = .replyOk
  · exact .inl ⟨h, if_pos h⟩
  · exact .inr ⟨h, if_neg h⟩

/-- The sequencer (R97, R98): advance, or end the cold start, or end the commit. -/
theorem Regs.afterWrite_cases (r : Regs) :
    (r.widx ≠ 3#2 ∧ r.afterWrite = { r with widx := r.widx + 1#2 }) ∨
    (r.widx = 3#2 ∧ r.fsm = .coldStart ∧ r.afterWrite = { r with widx := 0#2, fsm := .linkWait }) ∨
    (r.widx = 3#2 ∧ r.fsm ≠ .coldStart ∧
      r.afterWrite =
        { r with
          lastPri := r.curPri, lastPw := r.curPw, lastValid := true, widx := 0#2, fsm := .awaitFrame }) := by
  by_cases h : r.widx = 3#2
  · by_cases h' : r.fsm = .coldStart
    · exact .inr (.inl ⟨h, h', by simp [Regs.afterWrite, Regs.lastWrite, h, h']⟩)
    · exact .inr (.inr ⟨h, h', by simp [Regs.afterWrite, Regs.lastWrite, h, h', Regs.recordCommit]⟩)
  · exact .inl ⟨h, by simp [Regs.afterWrite, Regs.lastWrite, h]⟩

/-- `cnt = 8` as a bit vector. -/
theorem Regs.lastByte_iff (r : Regs) : r.lastByte = true ↔ r.cnt = 8#4 := by
  simp [Regs.lastByte, Config.FRAME_LEN, ← BitVec.toNat_inj]

/-- Reception (R130): the byte is placed, and the count advances or the frame is complete. -/
theorem Regs.takeByte_cases (r : Regs) (b : Byte) :
    (r.cnt = 8#4 ∧ r.takeByte b = { r with buf := r.buf.set r.cnt.toNat b, cnt := 0#4, fsm := .decoding }) ∨
    (r.cnt ≠ 8#4 ∧ r.takeByte b = { r with buf := r.buf.set r.cnt.toNat b, cnt := r.cnt + 1#4 }) := by
  by_cases h : r.lastByte = true
  · exact .inl ⟨r.lastByte_iff.mp h, if_pos h⟩
  · exact .inr ⟨mt r.lastByte_iff.mpr h, if_neg h⟩

/-- Placing byte `i` of the frame is replacing it in the list of its bytes (R31). -/
theorem Frame.toBytes_set (f : Frame) (i : Nat) (b : Byte) (h : i ≤ 8) :
    (f.set i b).toBytes = f.toBytes.set i b := by
  obtain rfl | rfl | rfl | rfl | rfl | rfl | rfl | rfl | rfl :
    i = 0 ∨ i = 1 ∨ i = 2 ∨ i = 3 ∨ i = 4 ∨ i = 5 ∨ i = 6 ∨ i = 7 ∨ i = 8 := by omega
  all_goals rfl

end Sys2Proof.Machine
end

