-- ==== Sys2Proof/Laws/PerInstr.lean ====
section
/-! SUPPORT. Facts stated per instruction. `EncodeLength`: every encoding has its format's one fixed length (R70). -/

namespace Sys2Proof.Laws.EncodeLength

/-- R70: "Each format has one fixed length." -/
def Statement (i : Instr) : Prop := (encode i).length = i.format.length

theorem setp (pri pw : U16) (chk : Byte) : Statement (.setp pri pw chk) := rfl
theorem wrReg2 : Statement .wrReg2 := rfl
theorem wrReg3 : Statement .wrReg3 := rfl
theorem wrReg4 : Statement .wrReg4 := rfl
theorem wrReg5 : Statement .wrReg5 := rfl
theorem ackSuccess : Statement .ackSuccess := rfl
theorem errStartOfMessage : Statement .errStartOfMessage := rfl
theorem errEndOfMessage : Statement .errEndOfMessage := rfl
theorem errMessageLength : Statement .errMessageLength := rfl
theorem errCommandCode : Statement .errCommandCode := rfl
theorem errChecksum : Statement .errChecksum := rfl

end Sys2Proof.Laws.EncodeLength
end

