-- ==== Sys2Proof/Laws/Step.lean ====
section
/-! SUPPORT. What one step can do, said once: the refusal, the reset edge, or the arm of the current state (R145). -/

namespace Sys2Proof.Machine

/-- An item decoded from a response byte, run in a reply state, is the reply arm of R133 and R134. -/
theorem exec_of_decodeResp {s : State} {i : Instr} (hs : s.regs.fsm ≠ .decoding)
    (h : decodeResp s.regs.ackR = some i) : exec i s = .next (replyArm s) := by
  have hd : s.decodingNow = false := by simp [State.decodingNow, hs]
  have key : ∀ k, s.regs.ackR = k → respond k s = replyArm s := by
    rintro k rfl; simp [respond, replyArm]
  unfold decodeResp at h
  split_ifs at h with h1 h2 h3 h4 h5 h6 <;> (simp only [Option.some.injEq] at h; subst h)
  · simp only [exec, execAckSuccess, key _ h1]
  · simp only [exec, execErrStartOfMessage, reject, hd, Bool.false_eq_true, if_false, key _ h2, Reject.code]
  · simp only [exec, execErrMessageLength, reject, hd, Bool.false_eq_true, if_false, key _ h3, Reject.code]
  · simp only [exec, execErrCommandCode, reject, hd, Bool.false_eq_true, if_false, key _ h4, Reject.code]
  · simp only [exec, execErrChecksum, reject, hd, Bool.false_eq_true, if_false, key _ h5, Reject.code]
  · simp only [exec, execErrEndOfMessage, reject, hd, Bool.false_eq_true, if_false, key _ h6, Reject.code]

/-- The item decoded from the frame in DECODING records the frame's verdict (R123). -/
theorem exec_of_decodeFrame {s : State} (f : Frame) (hd : s.decodingNow = true) :
    exec (decodeFrame f) s = .next (recordVerdict (verdict f) s) := by
  rcases decodeFrame_cases f with ⟨pri, pw, hv, hi⟩ | ⟨k, hv, hi⟩
  · obtain ⟨he, -⟩ := eq_setpFrame_of_accepted hv
    rw [hi]
    simp only [exec, execSetp, hd, if_true]
    rw [← he]
  · rw [hi, hv]
    cases k <;>
      simp [Reject.instr, exec, execErrStartOfMessage, execErrEndOfMessage, execErrMessageLength,
        execErrCommandCode, execErrChecksum, reject, hd]

/-- The four values of the sequencer index. -/
theorem widx_cases (w : BitVec 2) : w = 0#2 ∨ w = 1#2 ∨ w = 2#2 ∨ w = 3#2 := by
  have hw := w.isLt
  simp only [← BitVec.toNat_inj, BitVec.toNat_ofNat]
  omega

/-- The item selected by `widx` is the write of that index (R74), and it performs that write (R97, R98). -/
theorem exec_of_widx (s : State) :
    ∃ i, decodeRegbus (wrOffset s.regs.widx) = some i ∧ exec i s = .next (writeReg s.regs.widx s) := by
  obtain e | e | e | e := widx_cases s.regs.widx <;> rw [e]
  · exact ⟨.wrReg2, rfl, rfl⟩
  · exact ⟨.wrReg3, rfl, rfl⟩
  · exact ⟨.wrReg4, rfl, rfl⟩
  · exact ⟨.wrReg5, rfl, rfl⟩

/-- The arm of the current state, outside reset (R145). -/
def armOf (s : State) : State :=
  match s.regs.fsm with
  | .coldStart   => writeReg s.regs.widx s
  | .linkWait    => linkWaitArm s
  | .fatal       => s.hold
  | .awaitFrame  => awaitFrameArm s
  | .decoding    => recordVerdict (verdict s.regs.buf) s
  | .replyErr    => replyArm s
  | .replyOk     => replyArm s
  | .settle      => settleArm s
  | .maybeCommit => maybeCommitArm s
  | .commitWrite => writeReg s.regs.widx s

/-- Outside reset, on a legal configuration, a step is the arm of the current state. -/
theorem step_arm {s : State} (hc : s.cfg.wf = true) (hr : s.now.rst = false) : step s = .next (armOf s) := by
  simp only [step, hc, if_true, hr, Bool.false_eq_true, if_false]
  cases hf : s.regs.fsm
  case decoding =>
    simp only [fetch, hf, armOf]
    exact exec_of_decodeFrame _ (by simp [State.decodingNow, hr, hf])
  case replyErr | replyOk =>
    simp only [fetch, hf, armOf]
    cases h : decodeResp s.regs.ackR with
    | none => simp [internalArm, hf]
    | some i => exact exec_of_decodeResp (by simp [hf]) h
  case coldStart | commitWrite =>
    obtain ⟨i, hi, he⟩ := exec_of_widx s
    simpa only [fetch, hf, armOf, hi] using he
  all_goals simp [fetch, internalArm, armOf, fatalArm, hf]

/-- Under reset, on a legal configuration, a step is the reset edge (R200). -/
theorem step_reset {s : State} (hc : s.cfg.wf = true) (hr : s.now.rst = true) :
    step s = .next s.resetEdge := by
  simp [step, hc, hr]

/-- What a step can do: on a legal configuration the reset edge or the arm of the current state. -/
theorem step_cases {s t : State} (h : step s = .next t) :
    s.cfg.wf = true ∧
      ((s.now.rst = true ∧ t = s.resetEdge) ∨ (s.now.rst = false ∧ t = armOf s)) := by
  by_cases hc : s.cfg.wf = true
  · refine ⟨hc, ?_⟩
    cases hr : s.now.rst with
    | true =>
      rw [step_reset hc hr] at h
      exact .inl ⟨rfl, (Host.Outcome.next.inj h).symm⟩
    | false =>
      rw [step_arm hc hr] at h
      exact .inr ⟨rfl, (Host.Outcome.next.inj h).symm⟩
  · simp [step, hc] at h

end Sys2Proof.Machine
end

