-- ==== Sys2Proof/Laws/Run.lean ====
section
/-! SUPPORT. Runs: a step then a run, two runs in a row, what every step does to the inputs, the parameters and the cycle
count, and premises about the coming inputs carried over a step. -/

namespace Sys2Proof.Machine

theorem run_zero (s : State) : Sys2Proof.core.run 0 s = .next s := rfl

/-- A step, then a run. -/
theorem run_succ_of_step {n : Nat} {s t : State} (h : step s = .next t) :
    Sys2Proof.core.run (n + 1) s = Sys2Proof.core.run n t := by
  have : Sys2Proof.core.step s = .next t := h
  simp only [Host.Core.run, this]

/-- Two runs in a row. -/
theorem run_add_of_next {m n : Nat} {s t : State} (h : Sys2Proof.core.run m s = .next t) :
    Sys2Proof.core.run (m + n) s = Sys2Proof.core.run n t := by
  induction m generalizing s with
  | zero =>
    have : s = t := Host.Outcome.next.inj h
    rw [Nat.zero_add, this]
  | succ m ih =>
    cases hs : step s with
    | next u =>
      rw [run_succ_of_step hs] at h
      rw [Nat.add_right_comm, run_succ_of_step hs, ih h]
    | fault r => exact nomatch r
    | refused r =>
      have hs' : Sys2Proof.core.step s = .refused r := hs
      simp [Host.Core.run, hs'] at h

/-- Every step spends one cycle's inputs and one cycle, and keeps the parameters. -/
theorem step_clock {s t : State} (h : step s = .next t) :
    t.inputs = s.inputs.tail ∧ t.cycle = s.cycle + 1 ∧ t.cfg = s.cfg := by
  obtain ⟨-, ⟨-, rfl⟩ | ⟨-, rfl⟩⟩ := step_cases h
  · exact ⟨rfl, rfl, rfl⟩
  · cases hf : s.regs.fsm <;> simp only [armOf, hf]
    case coldStart | commitWrite =>
      rcases writeReg_cases s.regs.widx s with ⟨-, -, e⟩ | ⟨-, e⟩ <;> rw [e] <;> exact ⟨rfl, rfl, rfl⟩
    case linkWait => unfold linkWaitArm; split_ifs <;> exact ⟨rfl, rfl, rfl⟩
    case fatal => exact ⟨rfl, rfl, rfl⟩
    case awaitFrame => unfold awaitFrameArm; split_ifs <;> exact ⟨rfl, rfl, rfl⟩
    case decoding => unfold recordVerdict; split <;> exact ⟨rfl, rfl, rfl⟩
    case replyErr | replyOk => unfold replyArm; split_ifs <;> exact ⟨rfl, rfl, rfl⟩
    case settle => unfold settleArm; split_ifs <;> exact ⟨rfl, rfl, rfl⟩
    case maybeCommit => unfold maybeCommitArm; split_ifs <;> exact ⟨rfl, rfl, rfl⟩

/-- The inputs sampled now meet a premise about the coming cycles. -/
theorem State.nextInputs.now {s : State} {n : Nat} {P : Config.Inputs → Prop} (h : s.nextInputs (n + 1) P) :
    P s.now := by
  obtain ⟨hl, hP⟩ := h
  cases hi : s.inputs with
  | nil => simp [hi] at hl
  | cons i is => rw [State.now_of_inputs hi]; exact hP i (by simp [hi])

/-- A premise about the coming cycles, one cycle later. -/
theorem State.nextInputs.after {s t : State} {n : Nat} {P : Config.Inputs → Prop}
    (h : s.nextInputs (n + 1) P) (ht : t.inputs = s.inputs.tail) : t.nextInputs n P := by
  obtain ⟨hl, hP⟩ := h
  cases hi : s.inputs with
  | nil => simp [hi] at hl
  | cons i is =>
    simp only [hi, List.length_cons, List.take_succ_cons, List.mem_cons, List.tail_cons] at hl hP ht
    exact ⟨by rw [ht]; omega, fun j hj => hP j (.inr (by rwa [ht] at hj))⟩

/-- A premise about more cycles is one about fewer. -/
theorem State.nextInputs.mono {s : State} {m n : Nat} {P : Config.Inputs → Prop} (h : s.nextInputs n P)
    (hmn : m ≤ n) : s.nextInputs m P :=
  ⟨le_trans hmn h.1, fun i hi => h.2 i ((List.take_subset_take_left _ hmn) hi)⟩

/-- A stronger premise gives a weaker one. -/
theorem State.nextInputs.imp {s : State} {n : Nat} {P Q : Config.Inputs → Prop} (h : s.nextInputs n P)
    (hPQ : ∀ i, P i → Q i) : s.nextInputs n Q := ⟨h.1, fun i hi => hPQ i (h.2 i hi)⟩

/-- The untimed trace after an event. -/
theorem State.events_of_trace {s t : State} {e : Stamped} (h : t.trace = e :: s.trace) :
    t.events = s.events ++ [e.event] := by
  simp [State.events, h]

end Sys2Proof.Machine
end

