-- ==== Sys2Proof/Tests/Slice0.lean ====
section
/-! SUPPORT. The model's own tests: ill-formed terms, words written out from the spec, single steps with results from
95_test_vectors.md, and for each obligation with hypotheses a state that meets them. -/

namespace Sys2Proof.Tests

open Sys2Proof Sys2Proof.Machine

/-! ## Helpers -/

/-- The parameters of 95_test_vectors.md section 2.5 at a base of the tests' own. -/
def params : Config.Params := Config.Params.ofOpen 3 0x1000

/-- Every handshake target ready, the byte `b` offered, the link up. -/
def ready (b : Byte) : Config.Inputs := ⟨false, true, b, true, true, true, false⟩

/-- Nothing offered, nothing ready, the link silent. -/
def idle : Config.Inputs := ⟨false, false, 0#8, false, false, false, false⟩

/-- A cycle with `rst = 1`. -/
def resetIn : Config.Inputs := { ready 0#8 with rst := true }

/-- The reset registers in state `f`, with these inputs to come. -/
def at_ (f : Fsm) (ins : List Config.Inputs) : State :=
  { State.resetWith params ins with regs := { Regs.reset with fsm := f } }

/-- An outcome is a next state that satisfies `p`. -/
def nextIs (o : Host.Outcome State Fault Refusal) (p : State → Bool) : Bool :=
  match o with
  | .next t => p t
  | .fault _ => false
  | .refused _ => false

/-- The corrected frame of source scenario a: SETP pri=1000, pw=2 (95 section 1). -/
def frameA : Frame := ⟨0xC9#8, 0x05#8, 0x01#8, 0x00#8, 0x02#8, 0x03#8, 0xE8#8, 0x00#8, 0xCE#8⟩

/-! ## WellFormed refuses an ill-formed term of each check -/

theorem test_wf_setp : (Instr.setp 1000#16 2#16 0x00#8).wf = true := by decide
/-- Scenario a as printed has CHK 0xEA. -/
theorem test_illformed_checksum : (Instr.setp 1000#16 2#16 0xEA#8).wf = false := by decide
theorem test_illformed_clock : ({ params with clkHz := 0 } : Config.Params).wf = false := by decide
theorem test_illformed_settle_short : ({ params with settleCycles := 2 } : Config.Params).wf = false := by decide
theorem test_illformed_settle_long : ({ params with settleCycles := 2 ^ 32 + 1 } : Config.Params).wf = false := by decide
theorem test_illformed_width : ({ params with addrW := 4, waveBase := 0 } : Config.Params).wf = false := by decide
theorem test_illformed_misaligned : ({ params with waveBase := 0x1002 } : Config.Params).wf = false := by decide
theorem test_illformed_overflow : ({ params with waveBase := 0xFFFFFFF0 } : Config.Params).wf = false := by decide
/-- The highest legal base: `WAVE_BASE + 0x13 = 2^32 − 1` (R7). -/
theorem test_wf_highest_base : ({ params with waveBase := 0xFFFFFFEC } : Config.Params).wf = true := by decide
theorem test_wf_reference : Config.reference.wf = true := by decide

/-! ## Decoding: words written out from R71, R73, R74, R75 -/

/-- 95 section 2.1: SETP pri=0x1234, pw=0x0056. -/
theorem test_decode_setp :
    decode .frame [0b11001001#8, 0b00000101#8, 0b00000001#8, 0x00#8, 0x56#8, 0x12#8, 0x34#8, 0x45#8, 0b11001110#8] =
      .ok (.setp 0x1234#16 0x0056#16 0x45#8) := by decide
/-- R75's fixed bits with K = 0: 95 section 2.2, E4. -/
theorem test_decode_setp_zero_checksum :
    decodeTableWord 72 0xC905010000000000CE = some .errChecksum := by decide
theorem test_table_setp : decodeTableWord 72 0xC905010000000001CE = some (.setp 0#16 0#16 1#8) := by decide
theorem test_table_wrReg2 : decodeTableWord 8 0b00100 = some .wrReg2 := by decide
theorem test_table_wrReg3 : decodeTableWord 8 0b01000 = some .wrReg3 := by decide
theorem test_table_wrReg4 : decodeTableWord 8 0b01100 = some .wrReg4 := by decide
theorem test_table_wrReg5 : decodeTableWord 8 0b10000 = some .wrReg5 := by decide
theorem test_table_ackSuccess : decodeTableWord 8 0b10100001 = some .ackSuccess := by decide
theorem test_table_errStartOfMessage : decodeTableWord 8 0b11100001 = some .errStartOfMessage := by decide
theorem test_table_errMessageLength : decodeTableWord 8 0b11100010 = some .errMessageLength := by decide
theorem test_table_errCommandCode : decodeTableWord 8 0b11100011 = some .errCommandCode := by decide
theorem test_table_errChecksum : decodeTableWord 8 0b11100100 = some .errChecksum := by decide
theorem test_table_errEndOfMessage : decodeTableWord 8 0b11100101 = some .errEndOfMessage := by decide
/-- Offset 0x00 ("REG1") and a seventh response code are no item. -/
theorem test_table_reserved : decodeTableWord 8 0x00 = none ∧ decodeTableWord 8 0xE6 = none := by decide
theorem test_decode_short_frame : decode .frame [0xC9#8, 0x05#8] = .error .wrongLength := by decide
/-- 95 section 2.2, one row per check: SOM before all, EOM before LEN, LEN before CMD, CMD before CHK. -/
theorem test_decode_priority :
    decodeTableWord 72 0x000000000000000000 = some .errStartOfMessage ∧
    decodeTableWord 72 0xC90401000203E80000 = some .errEndOfMessage ∧
    decodeTableWord 72 0xC907090000000000CE = some .errMessageLength ∧
    decodeTableWord 72 0xC905000002_03E800CE = some .errCommandCode ∧
    decodeTableWord 72 0xC90501000203E8E8CE = some .errChecksum := by decide

/-! ## The fetched word runs as the first instruction after reset -/

theorem test_fetch_setp :
    nextIs (step (State.reset.withFetchWord 72 0xC90501000203E800CE)) (fun t =>
      t.regs.fsm == .replyOk && t.regs.curPri == 1000#16 && t.regs.curPw == 2#16 && t.regs.ackR == 0xA1#8) = true := by
  decide
theorem test_fetch_wrReg4 :
    nextIs (step (State.reset.withFetchWord 8 0x0C)) (fun t =>
      t.regs.widx == 3#2 && t.ipReg 2#2 == some 50000#32) = true := by decide
theorem test_fetch_ackSuccess :
    nextIs (step (State.reset.withFetchWord 8 0xA1)) (fun t =>
      t.regs.fsm == .settle && t.trace == [⟨0, .tx 0xA1#8⟩]) = true := by decide
theorem test_fetch_errEndOfMessage :
    nextIs (step (State.reset.withFetchWord 8 0xE5)) (fun t =>
      t.regs.fsm == .awaitFrame && t.trace == [⟨0, .tx 0xE5#8⟩]) = true := by decide

/-! ## Single steps -/

/-- Cycle 0 of trace T1: `REG2 ← 400`, and its lowest byte 0x90 at the lowest address (R54). -/
theorem test_cold_start_reg2 :
    nextIs (step (at_ .coldStart [ready 0#8])) (fun t =>
      t.trace == [⟨0, .wr 0x1004 400#32⟩] && t.mem.read 0x1004 == some 0x90#8 && t.mem.read 0x1005 == some 0x01#8) =
      true := by decide
/-- The fourth write of a commit records the pair (R97) and writes REG5 = 300 (R96). -/
theorem test_commit_reg5 :
    nextIs (step { at_ .commitWrite [ready 0#8] with
      regs := { Regs.reset with fsm := .commitWrite, widx := 3#2, curPri := 1000#16 } }) (fun t =>
        t.regs.fsm == .awaitFrame && t.regs.lastValid && t.regs.lastPri == 1000#16 && t.ipReg 3#2 == some 300#32) =
      true := by decide
/-- Stall vector "wr_ready = 0": the same write stays on the bus (95 section 2.5). -/
theorem test_write_stall :
    nextIs (step (at_ .coldStart [idle])) (fun t => t.regs == Regs.reset && t.trace == []) = true := by decide
/-- `link_err` and `link_up` both 1: FATAL (95 section 2.5). -/
theorem test_link_err_wins :
    nextIs (step (at_ .linkWait [{ ready 0#8 with linkErr := true }])) (fun t => t.regs.fsm == .fatal) = true := by
  decide
/-- The ninth byte (R130). -/
theorem test_ninth_byte :
    nextIs (step { at_ .awaitFrame [ready 0xCE#8] with
      regs := { Regs.reset with fsm := .awaitFrame, cnt := 8#4 } }) (fun t =>
        t.regs.fsm == .decoding && t.regs.cnt == 0#4 && t.regs.buf.eom == 0xCE#8) = true := by decide
/-- R147's example: with SETTLE_CYCLES = 3 the third cycle, count 2, leaves SETTLE. -/
theorem test_settle_third_cycle :
    nextIs (step { at_ .settle [idle] with regs := { Regs.reset with fsm := .settle, settleCnt := 2#32 } })
      (fun t => t.regs.fsm == .maybeCommit) = true := by decide
/-- R148's examples: (1000, 2) after (1000, 2) is suppressed, (1000, 3) is not. -/
theorem test_suppression :
    let r := { Regs.reset with fsm := .maybeCommit, lastValid := true, lastPri := 1000#16, lastPw := 2#16 }
    nextIs (step { at_ .maybeCommit [idle] with regs := { r with curPri := 1000#16, curPw := 2#16 } })
        (fun t => t.regs.fsm == .awaitFrame) = true ∧
      nextIs (step { at_ .maybeCommit [idle] with regs := { r with curPri := 1000#16, curPw := 3#16 } })
        (fun t => t.regs.fsm == .commitWrite) = true := by decide
/-- The image of (65535, 65535) (95 section 2.3). -/
theorem test_image_max :
    img 65535#16 65535#16 0#2 = 0x00640064#32 ∧ img 65535#16 65535#16 2#2 = 0x0063FF9C#32 ∧
      img 65535#16 65535#16 3#2 = 0x00640000#32 := by decide
/-- A reset edge in DECODING (R200). -/
theorem test_reset_edge :
    nextIs (step (at_ .decoding [resetIn])) (fun t => t.regs == Regs.reset && t.cycle == 1) = true := by decide

/-! ## Witnesses: for each obligation with hypotheses, terms that meet them all (each clause its own) -/

/-- The state `at_ f` with other registers. -/
def with_ (r : Regs) (ins : List Config.Inputs) : State := { State.resetWith params ins with regs := r }

/-- The reset registers in state `f`. -/
def regs_ (f : Fsm) : Regs := { Regs.reset with fsm := f }

/-- A legal configuration, no reset, state `f`: the premises shared by most obligations. -/
def meets (s : State) (f : Fsm) : Bool := s.cfg.wf && !s.now.rst && s.regs.fsm == f

theorem witness_DecodeOfEncodeIsTheInstruction : (Instr.setp 65535#16 0#16 0xFE#8).wf = true := by decide
theorem witness_DecodedBytesAreTheOnlySpelling :
    decode .frame frameA.toBytes = .ok (.setp 1000#16 2#16 0#8) ∧ decode .resp [0xE1#8] = .ok .errStartOfMessage ∧
      decode .regbus [0x10#8] = .ok .wrReg5 := by decide
theorem witness_FirstFailingCheckDecides :
    ({ frameA with som := 0xC8#8 }).som ≠ 0xC9#8 ∧
    (frameA.som = 0xC9#8 ∧ ({ frameA with eom := 0xCF#8 }).eom ≠ 0xCE#8) ∧
    (frameA.eom = 0xCE#8 ∧ ({ frameA with len := 0x04#8 }).len ≠ 0x05#8) ∧
    (frameA.len = 0x05#8 ∧ ({ frameA with cmd := 0x00#8 }).cmd ≠ 0x01#8) ∧
    (frameA.cmd = 0x01#8 ∧ 0x01#8 ^^^ frameA.pwHi ^^^ frameA.pwLo ^^^ frameA.priHi ≠ 0xEA#8) ∧
    frameA.cmd ^^^ frameA.pwHi ^^^ frameA.pwLo ^^^ frameA.priHi = frameA.chk := by decide
theorem witness_WrongChecksumByteIsRejected :
    0xEA#8 ≠ 0x01#8 ^^^ hiByte 2#16 ^^^ loByte 2#16 ^^^ hiByte 1000#16 := by decide
theorem witness_CoveredByteErrors :
    verdict frameA = .accepted 1000#16 2#16 ∧ 0xFF#8 ≠ frameA.pwHi ∧ 0xFF#8 ≠ frameA.pwLo ∧
      0xFF#8 ≠ frameA.priHi ∧ 0xFF#8 ≠ frameA.chk := by decide
theorem witness_PriLoIsUnprotected : verdict frameA = .accepted 1000#16 2#16 := by decide
theorem witness_StepRunsTheDecodedItem :
    (meets (with_ { regs_ .decoding with buf := frameA } [idle]) .decoding = true ∧
      decode .frame frameA.toBytes = .ok (.setp 1000#16 2#16 0#8)) ∧
    (meets (with_ { regs_ .replyErr with ackR := 0xE5#8 } [idle]) .replyErr = true ∧
      decode .resp [0xE5#8] = .ok .errEndOfMessage) ∧
    (meets (with_ { regs_ .replyOk with ackR := 0xA1#8 } [idle]) .replyOk = true ∧
      decode .resp [0xA1#8] = .ok .ackSuccess) ∧
    (meets (at_ .coldStart [idle]) .coldStart = true ∧ decode .regbus [BitVec.ofNat 8 4] = .ok .wrReg2) ∧
    (meets (with_ { regs_ .commitWrite with widx := 3#2 } [idle]) .commitWrite = true ∧
      decode .regbus [BitVec.ofNat 8 16] = .ok .wrReg5) := by decide
theorem witness_StepIsTotal : (at_ .settle []).cfg.wf = true := by decide
theorem witness_ResetEdgeLoadsTheResetValues :
    (at_ .commitWrite [resetIn]).cfg.wf = true ∧ (at_ .commitWrite [resetIn]).now.rst = true := by decide
theorem witness_NoHandshakeUnderReset : (at_ .awaitFrame [resetIn]).now.rst = true := by decide
/-- EventsAreTheFires, StateGraph, and the other obligations about `step s = next t`: every state steps. -/
theorem witness_every_state_steps :
    ∀ f ∈ [Fsm.coldStart, .linkWait, .fatal, .awaitFrame, .decoding, .replyErr, .replyOk, .settle, .maybeCommit,
        .commitWrite],
      nextIs (step (at_ f [ready 0#8])) (fun _ => true) = true ∧
        nextIs (step (at_ f [resetIn])) (fun _ => true) = true := by decide
theorem witness_SetpIsAccepted :
    meets (at_ .decoding [idle]) .decoding = true ∧
      0xFE#8 = 0x01#8 ^^^ hiByte 65535#16 ^^^ loByte 65535#16 ^^^ hiByte 65535#16 := by decide
theorem witness_IllFormedSetpTakesTheChecksumRejection :
    meets (at_ .decoding [idle]) .decoding = true ∧
      0xEA#8 ≠ 0x01#8 ^^^ hiByte 2#16 ^^^ loByte 2#16 ^^^ hiByte 1000#16 := by decide
theorem witness_RejectionsAreRecorded : meets (at_ .decoding [idle]) .decoding = true := by decide
theorem witness_ErrorResponsesAreSent :
    ∀ k ∈ [0xE1#8, 0xE5#8, 0xE2#8, 0xE3#8, 0xE4#8],
      let s := with_ { regs_ .replyErr with ackR := k } [ready 0#8]
      meets s .replyErr = true ∧ s.now.txReady = true ∧ s.regs.ackR = k := by decide
theorem witness_AcknowledgmentIsSent :
    let s := with_ { regs_ .replyOk with ackR := 0xA1#8 } [ready 0#8]
    meets s .replyOk = true ∧ s.now.txReady = true ∧ s.regs.ackR = 0xA1#8 := by decide
/-- ColdStartWrites and CommitWrites: each index in both states. -/
theorem witness_RegisterWrites :
    ∀ f ∈ [Fsm.coldStart, .commitWrite], ∀ i ∈ [0#2, 1#2, 2#2, 3#2],
      let s := with_ { regs_ f with widx := i } [ready 0#8]
      meets s f = true ∧ s.now.wrReady = true ∧ s.regs.widx = i := by decide
/-- A write that is not the one that fires, a response that is not the byte that fires, a frame not decoded. -/
theorem witness_ItemsNotTransferredChangeNothing :
    ((at_ .coldStart [ready 0#8]).fireWr = true ∧ (at_ .coldStart [ready 0#8]).regs.widx ≠ 1#2) ∧
    (∀ s ∈ [with_ { regs_ .replyErr with ackR := 0xE1#8 } [ready 0#8]],
      s.fireTx = true ∧ s.regs.ackR ≠ 0xE4#8 ∧ s.decodingNow = false) ∧
    (at_ .settle [ready 0#8]).decodingNow = false := by decide
/-- WR_REG3 while the write of REG2 fires, ERR_CHECKSUM while 0xE1 is sent: the cycle passes. -/
theorem test_item_not_offered :
    nextIs (exec .wrReg3 (at_ .coldStart [ready 0#8])) (fun t => t.regs.widx == 0#2 && t.trace == []) = true ∧
    nextIs (exec .errChecksum (with_ { regs_ .replyErr with ackR := 0xE1#8 } [ready 0#8]))
      (fun t => t.regs.fsm == .replyErr && t.trace == []) = true := by decide
theorem witness_FrameOfSetpAndResponses :
    nextIs (exec (.setp 0#16 0#16 1#8) (at_ .decoding [idle])) (fun _ => true) = true ∧
      nextIs (exec .errChecksum (at_ .replyErr [ready 0#8])) (fun _ => true) = true := by decide
theorem witness_FrameOfRegisterWrites :
    ∀ i ∈ [Instr.wrReg2, .wrReg3, .wrReg4, .wrReg5],
      nextIs (exec i (at_ .coldStart [ready 0#8])) (fun _ => true) = true := by decide
theorem witness_WritesAreLittleEndian :
    nextIs (step (at_ .coldStart [ready 0#8])) (fun _ => true) = true ∧ (at_ .coldStart [ready 0#8]).fireWr = true := by
  decide
/-- DecodingArm: a rejected and an accepted frame. -/
theorem witness_DecodingArm :
    meets (at_ .decoding [idle]) .decoding = true ∧ verdict Regs.reset.buf = .rejected .startOfMessage ∧
      verdict frameA = .accepted 1000#16 2#16 := by decide
/-- AwaitFrameArm: the first and the ninth byte, offered and not offered. -/
theorem witness_AwaitFrameArm :
    ∀ c ∈ [0#4, 8#4], ∀ i ∈ [idle, ready 0xC9#8],
      meets (with_ { regs_ .awaitFrame with cnt := c } [i]) .awaitFrame = true ∧ c.toNat ≤ 8 := by decide
/-- The other arms: each state, ready and not ready. -/
theorem witness_arms :
    ∀ f ∈ [Fsm.replyErr, .replyOk, .linkWait, .settle, .maybeCommit, .coldStart, .commitWrite],
      ∀ i ∈ [idle, ready 0#8], meets (at_ f [i]) f = true := by decide
theorem witness_RegisterInvariantIsKept :
    (State.resetWith params [ready 0#8]).Inv ∧
      nextIs (step (State.resetWith params [ready 0#8])) (fun _ => true) = true :=
  ⟨by constructor <;> decide, by decide⟩
theorem witness_CanonicalBusIsKept :
    Memory.wf (at_ .coldStart [ready 0#8]).mem = true ∧
      nextIs (step (at_ .coldStart [ready 0#8])) (fun t => t.mem.length == 4) = true := by decide
theorem witness_EventOrderIsKept :
    traceOrdered (at_ .coldStart [ready 0#8]).cycle (at_ .coldStart [ready 0#8]).trace ∧
      nextIs (step (at_ .coldStart [ready 0#8])) (fun t => t.trace.length == 1) = true :=
  ⟨trivial, by decide⟩
theorem witness_RegistersChangeOnlyInTheirArms :
    let s := with_ { regs_ .commitWrite with widx := 3#2 } [ready 0#8]
    s.now.rst = false ∧ nextIs (step s) (fun t => t.regs.lastValid) = true := by decide
/-- UnsampledInputsHaveNoEffect: for each clause a state in its premise and two cycles that differ elsewhere. -/
theorem witness_UnsampledInputsHaveNoEffect :
    ∀ x ∈ [(Fsm.settle, idle, ready 7#8), (.linkWait, { idle with linkUp := true }, ready 7#8),
        (.awaitFrame, { idle with rxData := 1#8 }, { ready 7#8 with rxValid := false }),
        (.awaitFrame, { idle with rxValid := true, rxData := 7#8 }, ready 7#8),
        (.replyErr, { idle with txReady := true }, ready 7#8), (.replyOk, { idle with txReady := true }, ready 7#8),
        (.coldStart, { idle with wrReady := true }, ready 7#8), (.commitWrite, { idle with wrReady := true }, ready 7#8)],
      x.2.1 ≠ x.2.2 ∧ x.2.1.rst = x.2.2.rst ∧
      (x.1 = .linkWait → x.2.1.linkUp = x.2.2.linkUp ∧ x.2.1.linkErr = x.2.2.linkErr) ∧
      (x.1 = .awaitFrame → x.2.1.rxValid = x.2.2.rxValid ∧ (x.2.1.rxValid = true → x.2.1.rxData = x.2.2.rxData)) ∧
      (x.1 = .replyErr ∨ x.1 = .replyOk → x.2.1.txReady = x.2.2.txReady) ∧
      (x.1 = .coldStart ∨ x.1 = .commitWrite → x.2.1.wrReady = x.2.2.wrReady) := by decide
theorem witness_StalledOffersAreHeld :
    nextIs (step (at_ .replyErr [idle, idle])) (fun t => !t.now.rst) = true ∧
    (at_ .replyErr [idle, idle]).out.txValid = true ∧ (at_ .replyErr [idle, idle]).now.txReady = false ∧
    nextIs (step (at_ .coldStart [idle, idle])) (fun t => !t.now.rst) = true ∧
    (at_ .coldStart [idle, idle]).out.wrValid = true ∧ (at_ .coldStart [idle, idle]).now.wrReady = false := by decide
theorem witness_FatalIsLeftOnlyByReset :
    meets (at_ .fatal [idle, ready 0#8]) .fatal = true ∧ (at_ .fatal [idle, ready 0#8]).noReset 2 :=
  ⟨by decide, by unfold State.noReset State.nextInputs; decide⟩
theorem witness_NineBytesMakeAFrame :
    let ins := frameA.toBytes.map ready
    meets (at_ .awaitFrame (ins ++ [idle])) .awaitFrame = true ∧ (at_ .awaitFrame (ins ++ [idle])).regs.cnt = 0#4 ∧
      (∀ i ∈ ins, i.rst = false ∧ i.rxValid = true) ∧ ins.map Config.Inputs.rxData = frameA.toBytes := by decide
theorem witness_SettleLastsExactly :
    let s := at_ .settle [idle, ready 0#8, idle]
    meets s .settle = true ∧ s.regs.settleCnt = 0#32 ∧ s.noReset s.cfg.settleCycles :=
  ⟨by decide, by decide, by unfold State.noReset State.nextInputs; decide⟩
theorem witness_SettleGapHasNoEvent :
    let s := at_ .replyOk [ready 0#8, idle, idle, idle, ready 0#8]
    meets s .replyOk = true ∧ s.fireTx = true ∧ s.noReset 5 ∧ 4 ≤ s.cfg.settleCycles + 1 :=
  ⟨by decide, by decide, by unfold State.noReset State.nextInputs; decide, by decide⟩
theorem witness_BootWritesTheDefaultImage :
    params.wf = true ∧ (∀ i ∈ [ready 0#8, ready 0#8, ready 0#8, ready 0#8], i.rst = false ∧ i.wrReady = true) ∧
      (ready 0#8).rst = false ∧ (ready 0#8).linkUp = true ∧ (ready 0#8).linkErr = false := by decide
theorem witness_SetpCommitsEndToEnd :
    let s := with_ { regs_ .decoding with buf := frameA } (List.replicate 10 (ready 0#8))
    meets s .decoding = true ∧ verdict s.regs.buf = .accepted 1000#16 2#16 ∧
      ¬ (s.regs.lastValid = true ∧ s.regs.lastPri = 1000#16 ∧ s.regs.lastPw = 2#16) ∧
      s.eager (s.cfg.settleCycles + 7) :=
  ⟨by decide, by decide, by decide, by unfold State.eager State.nextInputs; decide⟩
theorem witness_DuplicateSetpWritesNothing :
    let s := with_ { regs_ .decoding with buf := frameA, lastValid := true, lastPri := 1000#16, lastPw := 2#16 }
      (List.replicate 6 (ready 0#8))
    meets s .decoding = true ∧ verdict s.regs.buf = .accepted 1000#16 2#16 ∧ s.regs.lastValid = true ∧
      s.regs.lastPri = 1000#16 ∧ s.regs.lastPw = 2#16 ∧ s.eager (s.cfg.settleCycles + 3) :=
  ⟨by decide, by decide, by decide, by decide, by decide, by unfold State.eager State.nextInputs; decide⟩
theorem witness_RejectionLeavesEverythingElse :
    let s := at_ .decoding [ready 0#8, ready 0#8]
    meets s .decoding = true ∧ verdict s.regs.buf = .rejected .startOfMessage ∧ s.eager 2 :=
  ⟨by decide, by decide, by unfold State.eager State.nextInputs; decide⟩
theorem witness_RunsRefineTheSourceLoop :
    params.wf = true ∧ (State.resetWith params (frameA.toBytes.map ready)).noReset 9 :=
  ⟨by decide, by unfold State.noReset State.nextInputs; decide⟩

end Sys2Proof.Tests
end

section
/-! PROOFS, family 00_scope.md: an item that the block does not process in this cycle lets the cycle pass (R10, R27,
R28, log 3). -/

namespace Sys2Proof.Machine

/-- A response that is not sent lets the cycle pass (R27, R135). -/
theorem respond_eq_hold {k : Byte} {s : State} (h : ¬ (s.fireTx = true ∧ s.regs.ackR = k)) :
    respond k s = s.hold := by
  obtain ⟨hf, hk, -⟩ | ⟨-, he⟩ := respond_cases k s
  · exact absurd ⟨hf, hk⟩ h
  · exact he

/-- A write that is not performed lets the cycle pass (R28, R97). -/
theorem writeReg_eq_hold {i : BitVec 2} {s : State} (h : ¬ (s.fireWr = true ∧ s.regs.widx = i)) :
    writeReg i s = s.hold := by
  obtain ⟨hf, hi, -⟩ | ⟨-, he⟩ := writeReg_cases i s
  · exact absurd ⟨hf, hi⟩ h
  · exact he

/-- A rejection that is neither recorded nor sent lets the cycle pass (R123, R133). -/
theorem reject_eq_hold (k : Reject) {s : State} (hd : s.decodingNow = false)
    (h : ¬ (s.fireTx = true ∧ s.regs.ackR = k.code)) : reject k s = s.hold := by
  obtain ⟨hd', -⟩ | ⟨-, he⟩ := reject_cases k s
  · exact absurd hd' (by simp [hd])
  · exact he.trans (respond_eq_hold h)

/-- SETP in a cycle that classifies no frame lets the cycle pass (R123). -/
theorem execSetp_eq_hold {s : State} (pri pw : U16) (chk : Byte) (hd : s.decodingNow = false) :
    execSetp pri pw chk s = .next s.hold := by
  simp [execSetp, hd]

/-- Settles O27, by the item: each runs one of the four operations above, and the premises exclude the case in which that
operation does anything but let the cycle pass. -/
theorem itemsNotTransferredChangeNothing : Obligations.ItemsNotTransferredChangeNothing := by
  unfold Obligations.ItemsNotTransferredChangeNothing
  intro i s hwr htx hdec
  change exec i s = .next s.hold
  cases i with
  | setp pri pw chk => exact execSetp_eq_hold pri pw chk (hdec nofun nofun)
  | wrReg2 => exact congrArg _ (writeReg_eq_hold (hwr (.wrReg2, 0#2) (by simp) rfl))
  | wrReg3 => exact congrArg _ (writeReg_eq_hold (hwr (.wrReg3, 1#2) (by simp) rfl))
  | wrReg4 => exact congrArg _ (writeReg_eq_hold (hwr (.wrReg4, 2#2) (by simp) rfl))
  | wrReg5 => exact congrArg _ (writeReg_eq_hold (hwr (.wrReg5, 3#2) (by simp) rfl))
  | ackSuccess => exact congrArg _ (respond_eq_hold (htx (.ackSuccess, 0xA1#8) (by simp) rfl))
  | errStartOfMessage =>
    exact congrArg _ (reject_eq_hold .startOfMessage (hdec nofun nofun)
      (htx (.errStartOfMessage, 0xE1#8) (by simp) rfl))
  | errEndOfMessage =>
    exact congrArg _ (reject_eq_hold .endOfMessage (hdec nofun nofun) (htx (.errEndOfMessage, 0xE5#8) (by simp) rfl))
  | errMessageLength =>
    exact congrArg _ (reject_eq_hold .messageLength (hdec nofun nofun) (htx (.errMessageLength, 0xE2#8) (by simp) rfl))
  | errCommandCode =>
    exact congrArg _ (reject_eq_hold .commandCode (hdec nofun nofun) (htx (.errCommandCode, 0xE3#8) (by simp) rfl))
  | errChecksum =>
    exact congrArg _ (reject_eq_hold .checksum (hdec nofun nofun) (htx (.errChecksum, 0xE4#8) (by simp) rfl))

end Sys2Proof.Machine
end

section
/-! PROOFS, family 10_state.md: the output ports (R24, R25), what a cycle can do (R26 to R28, R145), the invariants of
R44, and who writes what (R39, R43). -/

namespace Sys2Proof.Machine

/-! ## Reset values and output ports -/

/-- Settles O15: both reset states are built from `Regs.reset`, which lists R42's values. -/
theorem resetStateHoldsTheResetValues : Obligations.ResetStateHoldsTheResetValues :=
  fun _ _ => ⟨rfl, rfl⟩

theorem State.out_rxReady_iff (s : State) :
    s.out.rxReady = true ↔ s.now.rst = false ∧ s.regs.fsm = .awaitFrame := by
  simp [State.out, outputs]

theorem State.out_txValid_iff (s : State) :
    s.out.txValid = true ↔ s.now.rst = false ∧ (s.regs.fsm = .replyErr ∨ s.regs.fsm = .replyOk) := by
  simp [State.out, outputs]

theorem State.out_wrValid_iff (s : State) :
    s.out.wrValid = true ↔ s.now.rst = false ∧ (s.regs.fsm = .coldStart ∨ s.regs.fsm = .commitWrite) := by
  simp [State.out, outputs]

theorem State.out_fatal_iff (s : State) :
    s.out.fatal = true ↔ s.now.rst = false ∧ s.regs.fsm = .fatal := by
  simp [State.out, outputs]

/-- Settles O16, port by port; the address does not wrap by `wrAddr_of_wf`. -/
theorem outputEquations : Obligations.OutputEquations := by
  unfold Obligations.OutputEquations
  intro s
  have haddr : s.out.wrAddr = (s.cfg.waveBase + 4 * (s.regs.widx.toNat + 1)) % 2 ^ s.cfg.addrW := by
    rw [State.out_wrAddr, wrAddr, wrOffset_eq]
  exact ⟨s.out_rxReady_iff, s.out_txValid_iff, rfl, s.out_wrValid_iff, haddr, rfl, s.out_fatal_iff,
    fun hc => wrAddr_of_wf hc s.regs.widx⟩

/-- Settles O17: each of the outputs and fires named needs `rst = 0`. -/
theorem noHandshakeUnderReset : Obligations.NoHandshakeUnderReset := by
  unfold Obligations.NoHandshakeUnderReset
  intro s hr
  simp only [← Bool.not_eq_true, State.out_rxReady_iff, State.out_txValid_iff, State.out_wrValid_iff,
    State.out_fatal_iff, State.fireRx_iff, State.fireTx_iff, State.fireWr_iff]
  simp [hr]

/-! ## What a cycle can do -/

/-- The register updates of a cycle outside reset in which nothing is transferred, with their guards: the rows of R146
without a fire. -/
inductive Silent (s : State) : Regs → Prop
  /-- A port state whose handshake does not fire keeps its registers (R97, R98, R130, R135). -/
  | stall (hf : s.regs.fsm ∈ [Fsm.coldStart, .awaitFrame, .replyErr, .replyOk, .commitWrite])
      (hrx : s.fireRx = false) (htx : s.fireTx = false) (hwr : s.fireWr = false) : Silent s s.regs
  /-- LINK_WAIT goes on waiting (R138). -/
  | linkSilent (hf : s.regs.fsm = .linkWait) (he : s.now.linkErr = false) (hu : s.now.linkUp = false) :
      Silent s s.regs
  /-- LINK_WAIT sees `link_err` (R138). -/
  | linkFails (hf : s.regs.fsm = .linkWait) (he : s.now.linkErr = true) : Silent s s.regs.takeFatal
  /-- LINK_WAIT sees `link_up` alone (R138). -/
  | linkComesUp (hf : s.regs.fsm = .linkWait) (he : s.now.linkErr = false) (hu : s.now.linkUp = true) :
      Silent s { s.regs with fsm := .awaitFrame }
  /-- FATAL (R175). -/
  | fatal (hf : s.regs.fsm = .fatal) : Silent s s.regs
  /-- DECODING accepts the frame (R119). -/
  | accept {pri pw : U16} (hf : s.regs.fsm = .decoding) (hv : verdict s.regs.buf = .accepted pri pw) :
      Silent s (s.regs.accept pri pw)
  /-- DECODING rejects the frame (R123). -/
  | reject {k : Reject} (hf : s.regs.fsm = .decoding) (hv : verdict s.regs.buf = .rejected k) :
      Silent s (s.regs.takeRejection k.code)
  /-- SETTLE counts on (R147). -/
  | settleCounts (hf : s.regs.fsm = .settle) (hd : s.regs.settleDone s.cfg = false) :
      Silent s { s.regs with settleCnt := s.regs.settleCnt + 1#32 }
  /-- SETTLE ends (R147). -/
  | settleEnds (hf : s.regs.fsm = .settle) (hd : s.regs.settleDone s.cfg = true) :
      Silent s { s.regs with fsm := .maybeCommit }
  /-- MAYBE_COMMIT suppresses the commit (R148). -/
  | suppress (hf : s.regs.fsm = .maybeCommit) (hs : s.regs.suppressed = true) :
      Silent s { s.regs with fsm := .awaitFrame }
  /-- MAYBE_COMMIT begins the commit (R148). -/
  | beginCommit (hf : s.regs.fsm = .maybeCommit) (hs : s.regs.suppressed = false) :
      Silent s { s.regs with widx := 0#2, fsm := .commitWrite }

/-- What a cycle outside reset does: one of the three transfers, or none. -/
inductive Move (s : State) : State → Prop
  /-- A byte is taken (R26, R130). -/
  | takeByte (h : s.fireRx = true) : Move s ((s.emit (.rx s.now.rxData)).edge (s.regs.takeByte s.now.rxData))
  /-- A response is sent (R27, R133, R134). -/
  | sendByte (h : s.fireTx = true) : Move s (sendResponse s)
  /-- A word is written (R28, R97, R98). -/
  | writeWord (h : s.fireWr = true) :
      Move s ((s.busWrite s.out.wrAddr s.out.wrData).edge s.regs.afterWrite)
  /-- Nothing is transferred. -/
  | silent {r : Regs} (h : Silent s r) : Move s (s.edge r)

/-- Of the three handshakes at most one fires, since each needs its own states (R60). -/
theorem fires_exclusive (s : State) :
    ¬ (s.fireRx = true ∧ s.fireTx = true) ∧ ¬ (s.fireRx = true ∧ s.fireWr = true) ∧
      ¬ (s.fireTx = true ∧ s.fireWr = true) := by
  simp only [State.fireRx_iff, State.fireTx_iff, State.fireWr_iff]
  cases s.regs.fsm <;> simp

/-- Outside the five port states no handshake fires (R25). -/
theorem no_fire_of_fsm {s : State}
    (hf : s.regs.fsm ∉ [Fsm.coldStart, .awaitFrame, .replyErr, .replyOk, .commitWrite]) :
    s.fireRx = false ∧ s.fireTx = false ∧ s.fireWr = false := by
  simp only [List.mem_cons, List.not_mem_nil, or_false, not_or] at hf
  simp only [← Bool.not_eq_true, State.fireRx_iff, State.fireTx_iff, State.fireWr_iff]
  tauto

/-- The silent updates are those of cycles without a fire. -/
theorem Silent.no_fire {s : State} {r : Regs} (h : Silent s r) :
    s.fireRx = false ∧ s.fireTx = false ∧ s.fireWr = false := by
  cases h with
  | stall _ hrx htx hwr => exact ⟨hrx, htx, hwr⟩
  | linkSilent hf | linkFails hf | linkComesUp hf | fatal hf | accept hf | reject hf | settleCounts hf
  | settleEnds hf | suppress hf | beginCommit hf => exact no_fire_of_fsm (by simp [hf])

/-- AWAIT_FRAME takes the byte offered or waits (R130). -/
theorem move_awaitFrameArm {s : State} (hf : s.regs.fsm = .awaitFrame) : Move s (awaitFrameArm s) := by
  unfold awaitFrameArm
  split_ifs with h
  · exact .takeByte h
  · exact .silent (.stall (by simp [hf]) (by simpa using h) (by simp [State.fireTx, State.out, outputs, hf])
      (by simp [State.fireWr, State.out, outputs, hf]))

/-- A reply state sends its byte or waits (R133, R134). -/
theorem move_replyArm {s : State} (hf : s.regs.fsm = .replyErr ∨ s.regs.fsm = .replyOk) : Move s (replyArm s) := by
  unfold replyArm
  split_ifs with h
  · exact .sendByte h
  · refine .silent (.stall ?_ ?_ (by simpa using h) ?_) <;> rcases hf with hf | hf <;>
      simp [State.fireRx, State.fireWr, State.out, outputs, hf]

/-- A writing state performs the write on the bus or waits (R97, R98). -/
theorem move_writeReg {s : State} (hf : s.regs.fsm = .coldStart ∨ s.regs.fsm = .commitWrite) :
    Move s (writeReg s.regs.widx s) := by
  obtain ⟨h, -, he⟩ | ⟨h, he⟩ := writeReg_cases s.regs.widx s <;> rw [he]
  · exact .writeWord h
  · refine .silent (.stall ?_ ?_ ?_ (by simpa using h)) <;> rcases hf with hf | hf <;>
      simp [State.fireRx, State.fireTx, State.out, outputs, hf]

/-- The arm of the current state makes one of the moves. -/
theorem move_armOf (s : State) : Move s (armOf s) := by
  cases hf : s.regs.fsm <;> simp only [armOf, hf]
  case coldStart => exact move_writeReg (.inl hf)
  case commitWrite => exact move_writeReg (.inr hf)
  case replyErr => exact move_replyArm (.inl hf)
  case replyOk => exact move_replyArm (.inr hf)
  case awaitFrame => exact move_awaitFrameArm hf
  case fatal => exact .silent (.fatal hf)
  case linkWait =>
    unfold linkWaitArm
    split_ifs with he hu
    · exact .silent (.linkFails hf he)
    · exact .silent (.linkComesUp hf (by simpa using he) hu)
    · exact .silent (.linkSilent hf (by simpa using he) (by simpa using hu))
  case decoding =>
    cases hv : verdict s.regs.buf with
    | accepted pri pw => exact .silent (.accept hf hv)
    | rejected k => exact .silent (.reject hf hv)
  case settle =>
    unfold settleArm
    split_ifs with hd
    · exact .silent (.settleEnds hf hd)
    · exact .silent (.settleCounts hf (by simpa using hd))
  case maybeCommit =>
    unfold maybeCommitArm
    split_ifs with hs
    · exact .silent (.suppress hf hs)
    · exact .silent (.beginCommit hf (by simpa using hs))

/-- What a step can do: the reset edge or a move. -/
theorem step_moves {s t : State} (h : step s = .next t) :
    s.cfg.wf = true ∧ ((s.now.rst = true ∧ t = s.resetEdge) ∨ (s.now.rst = false ∧ Move s t)) := by
  obtain ⟨hc, ⟨hr, ht⟩ | ⟨hr, rfl⟩⟩ := step_cases h
  · exact ⟨hc, .inl ⟨hr, ht⟩⟩
  · exact ⟨hc, .inr ⟨hr, move_armOf s⟩⟩

/-! ## Transfers -/

/-- The events of a move are those of the handshakes that fire (R26 to R28). -/
theorem Move.trace_eq {s t : State} (h : Move s t) :
    t.trace =
      (if s.fireRx = true then [⟨s.cycle, .rx s.now.rxData⟩] else []) ++
      (if s.fireTx = true then [⟨s.cycle, .tx s.out.txData⟩] else []) ++
      (if s.fireWr = true then [⟨s.cycle, .wr s.out.wrAddr s.out.wrData⟩] else []) ++ s.trace := by
  obtain ⟨hrt, hrw, htw⟩ := fires_exclusive s
  cases h with
  | takeByte h =>
    have htx : ¬ s.fireTx = true := fun h' => hrt ⟨h, h'⟩
    have hwr : ¬ s.fireWr = true := fun h' => hrw ⟨h, h'⟩
    simp [h, htx, hwr]
  | sendByte h =>
    have hrx : ¬ s.fireRx = true := fun h' => hrt ⟨h', h⟩
    have hwr : ¬ s.fireWr = true := fun h' => htw ⟨h, h'⟩
    simp [h, hrx, hwr]
  | writeWord h =>
    have hrx : ¬ s.fireRx = true := fun h' => hrw ⟨h', h⟩
    have htx : ¬ s.fireTx = true := fun h' => htw ⟨h', h⟩
    simp [h, hrx, htx]
  | silent h => simp [h.no_fire]

/-- The bus changes exactly by the write that fires (R28). -/
theorem Move.mem_eq {s t : State} (h : Move s t) :
    t.mem = if s.fireWr = true then s.mem.write32 s.out.wrAddr s.out.wrData else s.mem := by
  obtain ⟨-, hrw, htw⟩ := fires_exclusive s
  cases h with
  | takeByte h => exact (if_neg fun h' => hrw ⟨h, h'⟩).symm
  | sendByte h => exact (if_neg fun h' => htw ⟨h, h'⟩).symm
  | writeWord h => exact (if_pos h).symm
  | silent h => simp [h.no_fire]

/-- Settles O18: under reset no handshake fires; outside it every move transfers exactly what its fire offers. -/
theorem eventsAreTheFires : Obligations.EventsAreTheFires := by
  unfold Obligations.EventsAreTheFires
  intro s t h
  refine ⟨rfl, rfl, rfl, ?_⟩
  obtain ⟨-, ⟨hr, rfl⟩ | ⟨-, hm⟩⟩ := step_moves h
  · obtain ⟨-, -, -, -, hrx, htx, hwr⟩ := noHandshakeUnderReset s hr
    simp [hrx, htx, hwr]
  · exact ⟨hm.trace_eq, hm.mem_eq, fires_exclusive s⟩

/-- Settles O46: the bus changes only by a write that fires, which goes to one of the four registers on a legal
configuration. -/
theorem onlyTheFourRegistersAreWritten : Obligations.OnlyTheFourRegistersAreWritten := by
  unfold Obligations.OnlyTheFourRegistersAreWritten
  intro s t h
  have hc := (step_moves h).1
  obtain ⟨-, -, -, -, hmem, -⟩ := eventsAreTheFires s t h
  rw [hmem]
  split_ifs with hwr
  · obtain ⟨-, hf, -⟩ := s.fireWr_iff.mp hwr
    refine ⟨fun h1 h2 => absurd hf (by simp [h1, h2]), fun a ha => ?_⟩
    have hw := s.regs.widx.isLt
    rw [Memory.read_write32, State.out_wrAddr, wrAddr_of_wf hc, if_neg (by omega)]
  · exact ⟨fun _ _ => rfl, fun _ _ => rfl⟩

/-! ## The invariants I1 to I6 -/

/-- What I1 to I6 say in each value of `state` (R44). -/
def Regs.InvIn (n : Nat) (r : Regs) : Fsm → Prop
  | .coldStart   => r.cnt = 0#4
  | .linkWait    => r.cnt = 0#4 ∧ r.widx = 0#2
  | .fatal       => r.cnt = 0#4 ∧ r.widx = 0#2
  | .awaitFrame  => r.cnt.toNat ≤ 8 ∧ r.widx = 0#2
  | .decoding    => r.cnt = 0#4 ∧ r.widx = 0#2
  | .replyErr    => r.cnt = 0#4 ∧ r.widx = 0#2 ∧
      r.ackR ∈ [Config.ERR_START_OF_MESSAGE, Config.ERR_MESSAGE_LENGTH, Config.ERR_COMMAND_CODE, Config.ERR_CHECKSUM,
        Config.ERR_END_OF_MESSAGE]
  | .replyOk     => r.cnt = 0#4 ∧ r.widx = 0#2 ∧ r.ackR = Config.ACK_SUCCESS
  | .settle      => r.cnt = 0#4 ∧ r.widx = 0#2 ∧ r.ackR = Config.ACK_SUCCESS ∧ r.settleCnt.toNat < n
  | .maybeCommit => r.cnt = 0#4 ∧ r.widx = 0#2 ∧ r.ackR = Config.ACK_SUCCESS
  | .commitWrite => r.cnt = 0#4 ∧ r.ackR = Config.ACK_SUCCESS

/-- I1 to I6, read by the value of `state`. -/
theorem Regs.inv_iff (n : Nat) (r : Regs) : r.Inv n ↔ r.InvIn n r.fsm := by
  constructor
  · rintro ⟨hcnt, hwidx, hsettle, herr, hok, hzero⟩
    cases hf : r.fsm <;> simp_all [Regs.InvIn]
  · intro h
    cases hf : r.fsm <;> rw [hf, Regs.InvIn] at h <;> constructor <;> simp_all

/-- Settles O41: the reset state is COLD_START with `cnt = 0`. -/
theorem registerInvariantHoldsAtReset : Obligations.RegisterInvariantHoldsAtReset := by
  unfold Obligations.RegisterInvariantHoldsAtReset
  intro p ins
  exact (Regs.inv_iff _ _).mpr rfl

/-- The code of a rejection is one of I4's five (R73). -/
theorem Reject.code_mem_errorCodes (k : Reject) :
    k.code ∈ [Config.ERR_START_OF_MESSAGE, Config.ERR_MESSAGE_LENGTH, Config.ERR_COMMAND_CODE, Config.ERR_CHECKSUM,
      Config.ERR_END_OF_MESSAGE] := by
  cases k <;> simp [Reject.code]

/-- Taking a byte keeps I1 to I6: below 8 the count has room for one more (I1), at 8 it returns to 0 (I6). -/
theorem Regs.Inv.takeByte {n : Nat} {r : Regs} (h : r.Inv n) (hf : r.fsm = .awaitFrame) (b : Byte) :
    (r.takeByte b).Inv n := by
  rw [Regs.inv_iff, hf] at h
  obtain ⟨hcnt, hwidx⟩ := h
  rw [Regs.inv_iff]
  obtain ⟨-, e⟩ | ⟨hlast, e⟩ := r.takeByte_cases b <;> rw [e]
  · exact ⟨rfl, hwidx⟩
  · rw [hf]
    refine ⟨?_, hwidx⟩
    show (r.cnt + 1#4).toNat ≤ 8
    bv_omega

/-- Sending a response keeps I1 to I6; the settle wait begins below SETTLE_CYCLES, which is at least 1 (I3, R7). -/
theorem Regs.Inv.afterResponse {n : Nat} {r : Regs} (h : r.Inv n) (hn : 0 < n)
    (hf : r.fsm = .replyErr ∨ r.fsm = .replyOk) : r.afterResponse.Inv n := by
  rw [Regs.inv_iff] at h ⊢
  obtain ⟨hok, e⟩ | ⟨hok, e⟩ := r.afterResponse_cases <;> rw [e]
  · rw [hok] at h
    obtain ⟨hcnt, hwidx, hack⟩ := h
    exact ⟨hcnt, hwidx, hack, hn⟩
  · rw [hf.resolve_right hok] at h
    obtain ⟨hcnt, hwidx, -⟩ := h
    exact ⟨by simp [hcnt], hwidx⟩

/-- A write keeps I1 to I6: the sequence ends with `widx` at 0 (I2). -/
theorem Regs.Inv.afterWrite {n : Nat} {r : Regs} (h : r.Inv n)
    (hf : r.fsm = .coldStart ∨ r.fsm = .commitWrite) : r.afterWrite.Inv n := by
  rw [Regs.inv_iff] at h ⊢
  obtain ⟨-, e⟩ | ⟨-, hcold, e⟩ | ⟨-, hcold, e⟩ := r.afterWrite_cases <;> rw [e]
  · obtain hf | hf := hf <;> rw [hf] at h ⊢ <;> exact h
  · rw [hcold] at h
    exact ⟨h, rfl⟩
  · rw [hf.resolve_left hcold] at h
    obtain ⟨hcnt, -⟩ := h
    exact ⟨by simp [hcnt], rfl⟩

/-- A settle count that is not the last one stays below SETTLE_CYCLES and does not wrap (I3, R147). -/
theorem settleCnt_succ_lt {r : Regs} {p : Config.Params} (hp : p.settleCycles ≤ 2 ^ 32)
    (h : r.settleCnt.toNat < p.settleCycles) (hd : r.settleDone p = false) :
    (r.settleCnt + 1#32).toNat < p.settleCycles := by
  simp only [Regs.settleDone, beq_eq_false_iff_ne, ne_eq] at hd
  rw [BitVec.toNat_add_of_lt (by simp; omega)]
  simp; omega

/-- A cycle without a transfer keeps I1 to I6. -/
theorem Silent.keeps_inv {s : State} {r : Regs} (hm : Silent s r) (hp : s.cfg.settleCycles ≤ 2 ^ 32)
    (h : s.regs.Inv s.cfg.settleCycles) : r.Inv s.cfg.settleCycles := by
  have hin := (Regs.inv_iff _ _).mp h
  cases hm with
  | stall | linkSilent | fatal => exact h
  | linkFails hf => rw [hf] at hin; exact (Regs.inv_iff _ _).mpr hin
  | linkComesUp hf =>
    rw [hf] at hin
    obtain ⟨hcnt, hwidx⟩ := hin
    exact (Regs.inv_iff _ _).mpr ⟨by simp [hcnt], hwidx⟩
  | accept hf =>
    rw [hf] at hin
    obtain ⟨hcnt, hwidx⟩ := hin
    exact (Regs.inv_iff _ _).mpr ⟨hcnt, hwidx, rfl⟩
  | @reject k hf =>
    rw [hf] at hin
    obtain ⟨hcnt, hwidx⟩ := hin
    exact (Regs.inv_iff _ _).mpr ⟨hcnt, hwidx, Reject.code_mem_errorCodes k⟩
  | settleCounts hf hd =>
    rw [hf] at hin
    obtain ⟨hcnt, hwidx, hack, hlt⟩ := hin
    rw [Regs.inv_iff, hf]
    exact ⟨hcnt, hwidx, hack, settleCnt_succ_lt hp hlt hd⟩
  | settleEnds hf =>
    rw [hf] at hin
    obtain ⟨hcnt, hwidx, hack, -⟩ := hin
    exact (Regs.inv_iff _ _).mpr ⟨hcnt, hwidx, hack⟩
  | suppress hf =>
    rw [hf] at hin
    obtain ⟨hcnt, hwidx, -⟩ := hin
    exact (Regs.inv_iff _ _).mpr ⟨by simp [hcnt], hwidx⟩
  | beginCommit hf =>
    rw [hf] at hin
    obtain ⟨hcnt, -, hack⟩ := hin
    exact (Regs.inv_iff _ _).mpr ⟨hcnt, hack⟩

/-- Settles O40: a reset edge leads to the reset registers, and each move keeps I1 to I6. -/
theorem registerInvariantIsKept : Obligations.RegisterInvariantIsKept := by
  unfold Obligations.RegisterInvariantIsKept
  intro s t h hs
  obtain ⟨hc, ⟨-, rfl⟩ | ⟨-, hm⟩⟩ := step_moves hs
  · exact registerInvariantHoldsAtReset s.cfg []
  obtain ⟨hclk, hsettle, hmax, -⟩ := (wf_iff s.cfg).mp hc
  cases hm with
  | takeByte hfire =>
    obtain ⟨-, hf, -⟩ := s.fireRx_iff.mp hfire
    exact Regs.Inv.takeByte h hf _
  | sendByte hfire =>
    obtain ⟨-, hf, -⟩ := s.fireTx_iff.mp hfire
    exact Regs.Inv.afterResponse h (lt_of_lt_of_le hclk hsettle) hf
  | writeWord hfire =>
    obtain ⟨-, hf, -⟩ := s.fireWr_iff.mp hfire
    exact Regs.Inv.afterWrite h hf
  | silent hq => exact hq.keeps_inv hmax h

/-! ## Who writes what -/

/-- Settles O45, move by move: each move writes registers of its own state only. -/
theorem registersChangeOnlyInTheirArms : Obligations.RegistersChangeOnlyInTheirArms := by
  unfold Obligations.RegistersChangeOnlyInTheirArms
  intro s t hr h
  obtain ⟨-, ⟨hr', -⟩ | ⟨-, hm⟩⟩ := step_moves h
  · simp [hr] at hr'
  cases hm with
  | takeByte hfire =>
    obtain ⟨-, hf, -⟩ := s.fireRx_iff.mp hfire
    obtain ⟨-, e⟩ | ⟨-, e⟩ := s.regs.takeByte_cases s.now.rxData <;> simp [hf, e]
  | sendByte hfire =>
    obtain ⟨-, hf, -⟩ := s.fireTx_iff.mp hfire
    obtain ⟨hok, e⟩ | ⟨hok, e⟩ := s.regs.afterResponse_cases
    · simp [hok, e]
    · simp [hf.resolve_right hok, e]
  | writeWord hfire =>
    obtain ⟨-, hf, hrdy⟩ := s.fireWr_iff.mp hfire
    obtain ⟨hw, e⟩ | ⟨hw, hcold, e⟩ | ⟨hw, hcold, e⟩ := s.regs.afterWrite_cases
    · obtain hf | hf := hf <;> simp [hf, hw, e]
    · simp [hcold, e]
    · simp [hf.resolve_left hcold, hw, hrdy, e]
  | silent hq =>
    have hlast : ¬ (s.regs.fsm = .commitWrite ∧ s.now.wrReady = true ∧ s.regs.widx = 3#2) := by
      rintro ⟨hf, hrdy, -⟩
      have hwr : s.fireWr = true := s.fireWr_iff.mpr ⟨hr, .inr hf, hrdy⟩
      simp [hq.no_fire] at hwr
    rw [if_neg hlast]
    cases hq with
    | stall | linkSilent | fatal | linkFails | linkComesUp | suppress => simp
    | accept hf hv => simp [hf, hv]
    | reject hf => simp [hf]
    | settleCounts hf | settleEnds hf | beginCommit hf => simp [hf]

/-! ## Frames of the items -/

/-- What a meaning of SETP, of a rejection or of a response can do in a cycle. -/
inductive CodecCycle (i : Instr) (s : State) : State → Prop
  /-- The cycle passes (log 3). -/
  | pass : CodecCycle i s s.hold
  /-- The byte on `tx_data` is sent (R133, R134). -/
  | send (hf : s.regs.fsm = .replyErr ∨ s.regs.fsm = .replyOk) : CodecCycle i s (sendResponse s)
  /-- DECODING records a rejection (R123). -/
  | reject (hf : s.regs.fsm = .decoding) (k : Reject) : CodecCycle i s (s.edge (s.regs.takeRejection k.code))
  /-- DECODING accepts a frame (R119). -/
  | accept (hf : s.regs.fsm = .decoding) (hi : i.format = .frame) (pri pw : U16) :
      CodecCycle i s (s.edge (s.regs.accept pri pw))

/-- A response is sent or the cycle passes. -/
theorem codecCycle_respond (i : Instr) (k : Byte) (s : State) : CodecCycle i s (respond k s) := by
  obtain ⟨hfire, -, e⟩ | ⟨-, e⟩ := respond_cases k s <;> rw [e]
  · exact .send (s.fireTx_iff.mp hfire).2.1
  · exact .pass

/-- A rejection is recorded in DECODING and is a response elsewhere. -/
theorem codecCycle_reject (i : Instr) (k : Reject) (s : State) : CodecCycle i s (reject k s) := by
  obtain ⟨hd, e⟩ | ⟨-, e⟩ := reject_cases k s <;> rw [e]
  · exact .reject (s.decodingNow_iff.mp hd).2 k
  · exact codecCycle_respond i k.code s

/-- SETP records its frame's verdict in DECODING, and lets the cycle pass elsewhere. -/
theorem codecCycle_of_execSetp {pri pw : U16} {chk : Byte} {s t : State} (h : execSetp pri pw chk s = .next t) :
    CodecCycle (.setp pri pw chk) s t := by
  unfold execSetp at h
  split_ifs at h with hd <;> cases h
  · have hf := (s.decodingNow_iff.mp hd).2
    cases verdict (setpFrame pri pw chk) with
    | accepted pri' pw' => exact .accept hf rfl pri' pw'
    | rejected k => exact .reject hf k
  · exact .pass

/-- Every item but the register writes runs such a cycle. -/
theorem codecCycle_of_exec {i : Instr} {s t : State} (hi : i.format ≠ .regbus) (h : exec i s = .next t) :
    CodecCycle i s t := by
  cases i with
  | setp pri pw chk => exact codecCycle_of_execSetp h
  | wrReg2 | wrReg3 | wrReg4 | wrReg5 => exact absurd rfl hi
  | ackSuccess => cases h; exact codecCycle_respond _ _ s
  | errStartOfMessage | errEndOfMessage | errMessageLength | errCommandCode | errChecksum =>
    cases h; exact codecCycle_reject _ _ s

/-- Settles O28, by what the item's cycle does. -/
theorem frameOfSetpAndResponses : Obligations.FrameOfSetpAndResponses := by
  unfold Obligations.FrameOfSetpAndResponses
  intro i s t hi h
  cases codecCycle_of_exec hi h with
  | pass => simp
  | send hf =>
    obtain ⟨hok, e⟩ | ⟨hok, e⟩ := s.regs.afterResponse_cases
    · simp [hok, e]
    · simp [hf.resolve_right hok, e]
  | reject hf k => simp [hf]
  | accept hf hfmt pri pw => simp [hf, hfmt]

/-- The four write items perform the write of their index (R93 to R96), and WR_REG5 is the write of index 3. -/
theorem exec_write {x : Instr × BitVec 2}
    (hx : x ∈ [(Instr.wrReg2, 0#2), (.wrReg3, 1#2), (.wrReg4, 2#2), (.wrReg5, 3#2)]) (s : State) :
    exec x.1 s = .next (writeReg x.2 s) ∧ (x.1 = .wrReg5 ↔ x.2 = 3#2) := by
  simp only [List.mem_cons, List.not_mem_nil, or_false] at hx
  obtain rfl | rfl | rfl | rfl := hx <;> exact ⟨rfl, by decide⟩

/-- Settles O29: the write performed leaves the bytes outside its four lanes, and the sequencer leaves all registers but
`widx`, at index 3 `state`, and at index 3 of a commit LastCommitted. -/
theorem frameOfRegisterWrites : Obligations.FrameOfRegisterWrites := by
  unfold Obligations.FrameOfRegisterWrites
  intro x s t hx h
  obtain ⟨hexec, hlast⟩ := exec_write hx s
  rw [hexec] at h
  cases h
  rw [ne_eq, hlast]
  obtain ⟨hfire, hw, e⟩ | ⟨-, e⟩ := writeReg_cases x.2 s <;> rw [e]
  · obtain ⟨-, hf, -⟩ := s.fireWr_iff.mp hfire
    have hmem : ∀ a : Nat, ¬ (wrAddr s.cfg x.2 ≤ a ∧ a < wrAddr s.cfg x.2 + 4) →
        (s.mem.write32 (wrAddr s.cfg x.2) (img s.regs.curPri s.regs.curPw x.2)).read a = s.mem.read a :=
      fun a ha => by rw [Memory.read_write32, if_neg ha]
    obtain ⟨hw3, e'⟩ | ⟨hw3, hcold, e'⟩ | ⟨hw3, hcold, e'⟩ := s.regs.afterWrite_cases
    · simpa [e'] using hmem
    · simpa [e', ← hw, hw3] using hmem
    · simpa [e', ← hw, hw3, hf.resolve_left hcold] using hmem
  · simp

end Sys2Proof.Machine
end

section
/-! PROOFS, family 20_memory.md: the bytes of a write (R54), the bus's canonical form (R50, R51, log 6), the refusal of
an illegal configuration (R57, log 12), and the order of events (R60, R66). -/

namespace Sys2Proof.Machine

/-! ## The register bus -/

/-- Byte lane `k` is the word's base-256 digit `k` (R54). -/
theorem lane_toNat (v : U32) (k : Nat) : (lane v k).toNat = v.toNat / 256 ^ k % 256 := by
  rw [lane, BitVec.extractLsb'_toNat, Nat.shiftRight_eq_div_pow, pow_mul]
  norm_num

/-- A step in which the write fires performs it (R28), and no other step touches the bus. -/
theorem step_mem {s t : State} (h : step s = .next t) :
    t.mem = if s.fireWr = true then s.mem.write32 s.out.wrAddr s.out.wrData else s.mem := by
  obtain ⟨-, -, -, -, hmem, -⟩ := eventsAreTheFires s t h
  exact hmem

/-- Settles O30: the firing write is a word write, which leaves lane `k` at its address plus `k`. -/
theorem writesAreLittleEndian : Obligations.WritesAreLittleEndian := by
  unfold Obligations.WritesAreLittleEndian
  intro s t h hwr k hk
  refine ⟨lane s.out.wrData k, ?_, lane_toNat _ k⟩
  rw [step_mem h, if_pos hwr, Memory.read_write32, if_pos (by omega), Nat.add_sub_cancel_left]

/-- Settles O42: a step writes a word or nothing, and a word write keeps the addresses rising. -/
theorem canonicalBusIsKept : Obligations.CanonicalBusIsKept := by
  unfold Obligations.CanonicalBusIsKept
  intro s t hwf h
  rw [step_mem h]
  split_ifs
  · exact Memory.wf_write32 _ _ hwf
  · exact hwf

/-! ## The refusal -/

/-- A step is refused exactly on an illegal configuration: on a legal one it is the reset edge or an arm. -/
theorem step_refused_iff (s : State) : step s = .refused .illegalConfiguration ↔ ¬ s.cfg.wf = true := by
  constructor
  · intro h hc
    cases hr : s.now.rst with
    | true => simp [step_reset hc hr] at h
    | false => simp [step_arm hc hr] at h
  · intro hc
    exact if_neg hc

/-- Settles O13: `Params.wf` is R7's constraints. -/
theorem illegalConfigurationIsRefused : Obligations.IllegalConfigurationIsRefused := by
  unfold Obligations.IllegalConfigurationIsRefused
  intro s
  exact (step_refused_iff s).trans (not_congr (wf_iff s.cfg))

/-! ## The order of events -/

/-- Events that lie before a cycle lie before every later one. -/
theorem traceOrdered.mono {m n : Nat} (hmn : m ≤ n) {es : List Stamped} (h : traceOrdered m es) :
    traceOrdered n es := by
  cases es with
  | nil => trivial
  | cons e es =>
    obtain ⟨hlt, hes⟩ := h
    exact ⟨lt_of_lt_of_le hlt hmn, hes⟩

/-- A move records no event or one, stamped with its cycle (R60). -/
theorem Move.trace_cases {s t : State} (h : Move s t) :
    t.trace = s.trace ∨ ∃ e, t.trace = ⟨s.cycle, e⟩ :: s.trace := by
  cases h with
  | takeByte => exact .inr ⟨_, rfl⟩
  | sendByte => exact .inr ⟨_, rfl⟩
  | writeWord => exact .inr ⟨_, rfl⟩
  | silent => exact .inl rfl

/-- A step records no event or one, stamped with its cycle (R60). -/
theorem step_trace_cases {s t : State} (h : step s = .next t) :
    t.trace = s.trace ∨ ∃ e, t.trace = ⟨s.cycle, e⟩ :: s.trace := by
  obtain ⟨-, ⟨-, rfl⟩ | ⟨-, hm⟩⟩ := step_moves h
  · exact .inl rfl
  · exact hm.trace_cases

/-- Settles O43: the cycle count rises by one, and the one event a step may add carries the count before it. -/
theorem eventOrderIsKept : Obligations.EventOrderIsKept := by
  unfold Obligations.EventOrderIsKept
  intro s t hord h
  obtain ⟨-, hcycle, -⟩ := step_clock h
  rw [hcycle]
  obtain e | ⟨ev, e⟩ := step_trace_cases h <;> rw [e]
  · exact hord.mono s.cycle.le_succ
  · exact ⟨s.cycle.lt_succ_self, hord⟩

/-- Settles O44: the trace after reset is empty (log 7). -/
theorem eventOrderHoldsAtReset : Obligations.EventOrderHoldsAtReset :=
  fun _ _ => trivial

end Sys2Proof.Machine
end

section
/-! PROOFS, family 30_encoding.md: what decodes in each of the three formats (R70, R73, R74, R76), and that decoding and
encoding undo each other on the well-formed items (R75, R80). -/

namespace Sys2Proof

/-! ## What decodes in each format -/

/-- The bytes of a frame decode, whatever they are (R76). -/
@[simp] theorem decode_frame_toBytes (f : Frame) : decode .frame f.toBytes = .ok (decodeFrame f) := rfl

/-- What decodes as a frame is the nine bytes of one (R70, R78). -/
theorem decode_frame_ok_iff {bs : List Byte} {i : Instr} :
    decode .frame bs = .ok i ↔ ∃ f : Frame, bs = f.toBytes ∧ decodeFrame f = i := by
  constructor
  · intro h
    cases hf : Frame.ofBytes bs with
    | none => simp [decode, hf] at h
    | some f => exact ⟨f, (Frame.toBytes_of_ofBytes hf).symm, by simpa [decode, hf] using h⟩
  · rintro ⟨f, rfl, rfl⟩
    exact decode_frame_toBytes f

/-- What decodes as a response is one byte with a code of R73 (R70). -/
theorem decode_resp_ok_iff {bs : List Byte} {i : Instr} :
    decode .resp bs = .ok i ↔ ∃ b, bs = [b] ∧ decodeResp b = some i := by
  obtain _ | ⟨b, _ | ⟨b', bs⟩⟩ := bs
  · simp [decode]
  · cases h : decodeResp b <;> simp [decode, h]
  · simp [decode]

/-- What decodes as a bus offset is one byte with an offset of R74 (R70). -/
theorem decode_regbus_ok_iff {bs : List Byte} {i : Instr} :
    decode .regbus bs = .ok i ↔ ∃ b, bs = [b] ∧ decodeRegbus b.toNat = some i := by
  obtain _ | ⟨b, _ | ⟨b', bs⟩⟩ := bs
  · simp [decode]
  · cases h : decodeRegbus b.toNat <;> simp [decode, h]
  · simp [decode]

/-! ## Well-formed items -/

/-- SETP is well-formed exactly with R75's K. -/
theorem Instr.wf_setp_iff {pri pw : U16} {k : Byte} :
    (Instr.setp pri pw k).wf = true ↔ k = setpChecksum pri pw :=
  beq_iff_eq

/-- Only the frame format constrains its item (R75): a response or a register write is well-formed. -/
theorem Instr.wf_of_format_ne_frame {i : Instr} (h : i.format ≠ .frame) : i.wf = true := by
  cases i with
  | setp => exact absurd rfl h
  | wrReg2 | wrReg3 | wrReg4 | wrReg5 => rfl
  | ackSuccess | errStartOfMessage | errEndOfMessage | errMessageLength | errCommandCode | errChecksum => rfl

/-- A rejection is an item of the response format (R73). -/
@[simp] theorem Reject.format_instr (k : Reject) : k.instr.format = .resp := by cases k <;> rfl

/-! ## Frames -/

/-- A SETP frame with R75's K decodes to its item, with another K to the checksum rejection (R118, R119). -/
theorem decodeFrame_setpFrame (pri pw : U16) (k : Byte) :
    decodeFrame (setpFrame pri pw k) = if k = setpChecksum pri pw then .setp pri pw k else .errChecksum := by
  unfold decodeFrame
  rw [verdict_setpFrame]
  split_ifs <;> rfl

/-- A frame decodes to a well-formed item: an accepted one has R75's K. -/
theorem wf_decodeFrame (f : Frame) : (decodeFrame f).wf = true := by
  obtain ⟨pri, pw, hv, e⟩ | ⟨k, -, e⟩ := decodeFrame_cases f <;> rw [e]
  · obtain ⟨-, hk⟩ := eq_setpFrame_of_accepted hv
    exact Instr.wf_setp_iff.mpr hk
  · exact Instr.wf_of_format_ne_frame (by simp)

/-- A frame that decodes to SETP is the only spelling of that item (R75). -/
theorem encode_decodeFrame {f : Frame} (h : (decodeFrame f).format = .frame) : encode (decodeFrame f) = f.toBytes := by
  obtain ⟨pri, pw, hv, e⟩ | ⟨k, -, e⟩ := decodeFrame_cases f <;> rw [e] at h ⊢
  · obtain ⟨hf, -⟩ := eq_setpFrame_of_accepted hv
    exact congrArg Frame.toBytes hf.symm
  · simp at h

/-! ## The statements -/

/-- Settles O1, by the item: SETP because a well-formed one carries the K that its frame's checks accept, each other item
because its one byte is a code of R73 or an offset of R74. -/
theorem decodeOfEncodeIsTheInstruction : Obligations.DecodeOfEncodeIsTheInstruction := by
  unfold Obligations.DecodeOfEncodeIsTheInstruction
  intro i hwf
  cases i with
  | setp pri pw k =>
    have hk : k = setpChecksum pri pw := Instr.wf_setp_iff.mp hwf
    calc decode .frame (setpFrame pri pw k).toBytes
      _ = .ok (decodeFrame (setpFrame pri pw k)) := decode_frame_toBytes _
      _ = .ok (.setp pri pw k) := by rw [decodeFrame_setpFrame, if_pos hk]
  | wrReg2 | wrReg3 | wrReg4 | wrReg5 => rfl
  | ackSuccess | errStartOfMessage | errEndOfMessage | errMessageLength | errCommandCode | errChecksum => rfl

/-- Settles O2, by the format. -/
theorem decodedBytesAreTheOnlySpelling : Obligations.DecodedBytesAreTheOnlySpelling := by
  unfold Obligations.DecodedBytesAreTheOnlySpelling
  intro fmt bs i h
  cases fmt with
  | frame =>
    obtain ⟨f, rfl, rfl⟩ := decode_frame_ok_iff.mp h
    exact ⟨wf_decodeFrame f, encode_decodeFrame⟩
  | resp =>
    obtain ⟨b, rfl, hb⟩ := decode_resp_ok_iff.mp h
    obtain ⟨hfmt, henc⟩ := encode_of_decodeResp hb
    exact ⟨Instr.wf_of_format_ne_frame (by simp [hfmt]), fun _ => henc⟩
  | regbus =>
    obtain ⟨b, rfl, hb⟩ := decode_regbus_ok_iff.mp h
    obtain ⟨hfmt, henc⟩ := encode_of_decodeRegbus hb
    exact ⟨Instr.wf_of_format_ne_frame (by simp [hfmt]), fun _ => henc⟩

/-- Settles O4: an accepted frame is SETP, a rejected one its rejection's row. -/
theorem everyFrameHasOneOutcome : Obligations.EveryFrameHasOneOutcome := by
  unfold Obligations.EveryFrameHasOneOutcome
  intro f
  refine ⟨decodeFrame f, decode_frame_toBytes f, ?_⟩
  obtain ⟨pri, pw, -, e⟩ | ⟨k, -, e⟩ := decodeFrame_cases f <;> rw [e]
  · exact .inl ⟨pri, pw, f.chk, rfl⟩
  · right
    cases k <;> simp [Reject.instr]

/-- Settles O8: seven decodings of written-out bytes, evaluated. -/
theorem wordsOfTheSpecDecode : Obligations.WordsOfTheSpecDecode := by
  unfold Obligations.WordsOfTheSpecDecode
  decide

end Sys2Proof
end

section
/-! PROOFS, family 40_register_interface.md: the register image (R91, R92), the write that fires (R93 to R98), and the
four writes in a row, which the boot runs (R99, R203). -/

namespace Sys2Proof.Machine

/-! ## The register image -/

/-- Settles O9: the four rows do not wrap (`img_zero_toNat` and its like), and each `i` selects one of them. -/
theorem registerImageIsExact : Obligations.RegisterImageIsExact := by
  unfold Obligations.RegisterImageIsExact
  intro pri pw
  refine ⟨img_zero_toNat pri pw, rfl, img_two_toNat pri pw, img_three_toNat pri pw, fun i => ?_⟩
  have hpri := pri.isLt
  have hpw := pw.isLt
  obtain rfl | rfl | rfl | rfl := widx_cases i
  · rw [img_zero_toNat]; omega
  · rw [img_one]; decide
  · rw [img_two_toNat]; omega
  · rw [img_three_toNat]; omega

/-- A bus word is the word of its value. -/
theorem eq_ofNat_of_toNat_eq {v : U32} {n : Nat} (h : v.toNat = n) : v = BitVec.ofNat 32 n := by
  simp [← h]

/-! ## The sequencer -/

/-- A write before the fourth advances `widx` (R97, R98). -/
theorem Regs.afterWrite_of_ne {r : Regs} (h : r.widx ≠ 3#2) : r.afterWrite = { r with widx := r.widx + 1#2 } :=
  if_neg (by simpa [Regs.lastWrite] using h)

/-- The sequencer in COLD_START (R98). -/
theorem Regs.afterWrite_of_coldStart {r : Regs} (hf : r.fsm = .coldStart) :
    r.afterWrite =
      if r.widx = 3#2 then { r with widx := 0#2, fsm := .linkWait } else { r with widx := r.widx + 1#2 } := by
  simp [Regs.afterWrite, Regs.lastWrite, hf]

/-- The sequencer in COMMIT_WRITE (R97). -/
theorem Regs.afterWrite_of_commitWrite {r : Regs} (hf : r.fsm = .commitWrite) :
    r.afterWrite =
      if r.widx = 3#2 then
        { r with lastPri := r.curPri, lastPw := r.curPw, lastValid := true, widx := 0#2, fsm := .awaitFrame }
      else { r with widx := r.widx + 1#2 } := by
  simp [Regs.afterWrite, Regs.lastWrite, Regs.recordCommit, hf]

/-- The cycle in which the write on the bus is performed (R28, R97, R98). -/
def State.writeWord (s : State) : State := (s.busWrite s.out.wrAddr s.out.wrData).edge s.regs.afterWrite

/-- A writing state performs the write on the bus when the target is ready, and waits otherwise (R97, R98). -/
theorem step_of_writing {s : State} (hc : s.cfg.wf = true) (hr : s.now.rst = false)
    (hf : s.regs.fsm = .coldStart ∨ s.regs.fsm = .commitWrite) :
    step s = .next (if s.now.wrReady = true then s.writeWord else s.hold) := by
  have harm : armOf s = writeReg s.regs.widx s := by
    obtain hf | hf := hf <;> simp only [armOf, hf]
  rw [step_arm hc hr, harm]
  obtain ⟨hfire, -, e⟩ | ⟨hno, e⟩ := writeReg_cases s.regs.widx s
  · obtain ⟨-, -, hrdy⟩ := s.fireWr_iff.mp hfire
    rw [e, if_pos hrdy]
    rfl
  · have hrdy : ¬ s.now.wrReady = true := fun hrdy => hno ⟨s.fireWr_iff.mpr ⟨hr, hf, hrdy⟩, rfl⟩
    rw [e, if_neg hrdy]

/-- Settles O38: the arm of a writing state, with COLD_START's sequencer. -/
theorem coldStartArm : Obligations.ColdStartArm := by
  unfold Obligations.ColdStartArm
  intro s hc hr hf
  rw [step_of_writing hc hr (.inl hf), State.writeWord, Regs.afterWrite_of_coldStart hf]
  rfl

/-- Settles O39: the arm of a writing state, with COMMIT_WRITE's sequencer. -/
theorem commitWriteArm : Obligations.CommitWriteArm := by
  unfold Obligations.CommitWriteArm
  intro s hc hr hf
  rw [step_of_writing hc hr (.inr hf), State.writeWord, Regs.afterWrite_of_commitWrite hf]
  rfl

/-! ## The four write items -/

/-- A write item that is on the bus and accepted writes the image of its index at its unwrapped address (R25, R28). -/
theorem exec_write_of_fire {x : Instr × BitVec 2} {s : State}
    (hx : x ∈ [(Instr.wrReg2, 0#2), (.wrReg3, 1#2), (.wrReg4, 2#2), (.wrReg5, 3#2)]) (hc : s.cfg.wf = true)
    (hfire : s.fireWr = true) (hw : s.regs.widx = x.2) :
    exec x.1 s = .next
      ((s.busWrite (s.cfg.waveBase + 4 * (x.2.toNat + 1)) (img s.regs.curPri s.regs.curPw x.2)).edge
        s.regs.afterWrite) := by
  obtain ⟨hexec, -⟩ := exec_write hx s
  obtain ⟨-, -, e⟩ | ⟨hno, -⟩ := writeReg_cases x.2 s
  · rw [hexec, e, wrAddr_of_wf hc]
  · exact absurd ⟨hfire, hw⟩ hno

section
variable {s : State} (hc : s.cfg.wf = true) (hfire : s.fireWr = true)
include hc hfire

/-- WR_REG2 (R93). -/
theorem exec_wrReg2_of_fire (hw : s.regs.widx = 0#2) :
    exec .wrReg2 s = .next
      ((s.busWrite (s.cfg.waveBase + 0x04) (BitVec.ofNat 32 (s.regs.curPw.toNat * 100 + 200))).edge
        { s.regs with widx := 1#2 }) := by
  rw [exec_write_of_fire (x := (.wrReg2, 0#2)) (by simp) hc hfire hw, eq_ofNat_of_toNat_eq (img_zero_toNat _ _),
    Regs.afterWrite_of_ne (by simp [hw]), hw]
  rfl

/-- WR_REG3 (R94). -/
theorem exec_wrReg3_of_fire (hw : s.regs.widx = 1#2) :
    exec .wrReg3 s = .next
      ((s.busWrite (s.cfg.waveBase + 0x08) (BitVec.ofNat 32 100)).edge { s.regs with widx := 2#2 }) := by
  rw [exec_write_of_fire (x := (.wrReg3, 1#2)) (by simp) hc hfire hw, img_one,
    Regs.afterWrite_of_ne (by simp [hw]), hw]
  rfl

/-- WR_REG4 (R95). -/
theorem exec_wrReg4_of_fire (hw : s.regs.widx = 2#2) :
    exec .wrReg4 s = .next
      ((s.busWrite (s.cfg.waveBase + 0x0C) (BitVec.ofNat 32 (s.regs.curPri.toNat * 100))).edge
        { s.regs with widx := 3#2 }) := by
  rw [exec_write_of_fire (x := (.wrReg4, 2#2)) (by simp) hc hfire hw, eq_ofNat_of_toNat_eq (img_two_toNat _ _),
    Regs.afterWrite_of_ne (by simp [hw]), hw]
  rfl

/-- WR_REG5 (R96); what the fourth write does to the registers depends on the state. -/
theorem exec_wrReg5_of_fire (hw : s.regs.widx = 3#2) :
    exec .wrReg5 s = .next
      ((s.busWrite (s.cfg.waveBase + 0x10) (BitVec.ofNat 32 (s.regs.curPw.toNat * 100 + 100))).edge
        s.regs.afterWrite) := by
  rw [exec_write_of_fire (x := (.wrReg5, 3#2)) (by simp) hc hfire hw, eq_ofNat_of_toNat_eq (img_three_toNat _ _)]
  rfl

end

/-- Settles O25: the four write items, the fourth with COLD_START's end of the sequence. -/
theorem coldStartWrites : Obligations.ColdStartWrites := by
  unfold Obligations.ColdStartWrites
  intro s hc hr hrdy hf
  have hfire : s.fireWr = true := s.fireWr_iff.mpr ⟨hr, .inl hf, hrdy⟩
  refine ⟨exec_wrReg2_of_fire hc hfire, exec_wrReg3_of_fire hc hfire, exec_wrReg4_of_fire hc hfire, fun hw => ?_⟩
  rw [exec_wrReg5_of_fire hc hfire hw, Regs.afterWrite_of_coldStart hf, if_pos hw]
  rfl

/-- Settles O26: the four write items, the fourth with COMMIT_WRITE's end of the sequence. -/
theorem commitWrites : Obligations.CommitWrites := by
  unfold Obligations.CommitWrites
  intro s hc hr hrdy hf
  have hfire : s.fireWr = true := s.fireWr_iff.mpr ⟨hr, .inr hf, hrdy⟩
  refine ⟨exec_wrReg2_of_fire hc hfire, exec_wrReg3_of_fire hc hfire, exec_wrReg4_of_fire hc hfire, fun hw => ?_⟩
  rw [exec_wrReg5_of_fire hc hfire hw, Regs.afterWrite_of_commitWrite hf, if_pos hw]
  rfl

/-! ## Writes in a row -/

@[simp] theorem State.writeWord_regs (s : State) : s.writeWord.regs = s.regs.afterWrite := rfl
@[simp] theorem State.writeWord_cfg (s : State) : s.writeWord.cfg = s.cfg := rfl
@[simp] theorem State.writeWord_inputs (s : State) : s.writeWord.inputs = s.inputs.tail := rfl
@[simp] theorem State.writeWord_cycle (s : State) : s.writeWord.cycle = s.cycle + 1 := rfl
@[simp] theorem State.writeWord_trace (s : State) :
    s.writeWord.trace = ⟨s.cycle, .wr s.out.wrAddr s.out.wrData⟩ :: s.trace := rfl

/-- The write performed gives its register its word and leaves the three others, whose addresses are disjoint. -/
theorem State.writeWord_ipReg {s : State} (hc : s.cfg.wf = true) (i : BitVec 2) :
    s.writeWord.ipReg i = if i = s.regs.widx then some s.out.wrData else s.ipReg i := by
  change (s.mem.write32 (wrAddr s.cfg s.regs.widx) s.out.wrData).read32 (wrAddr s.cfg i) = _
  split_ifs with hi
  · rw [hi, Memory.read32_write32]
  · have hne : i.toNat ≠ s.regs.widx.toNat := fun h => hi (BitVec.eq_of_toNat_eq h)
    exact Memory.read32_write32_disjoint _ _ (by rw [wrAddr_of_wf hc, wrAddr_of_wf hc]; omega)

/-- With the target ready in each cycle, the writes still to come of the four run one a cycle (R211). -/
theorem run_writeWord {k : Nat} {s : State} (hc : s.cfg.wf = true)
    (hf : s.regs.fsm = .coldStart ∨ s.regs.fsm = .commitWrite) (hk : s.regs.widx.toNat + k ≤ 4)
    (hin : s.nextInputs k fun i => i.rst = false ∧ i.wrReady = true) :
    Sys2Proof.core.run k s = .next (State.writeWord^[k] s) := by
  induction k generalizing s with
  | zero => rfl
  | succ k ih =>
    obtain ⟨hr, hrdy⟩ := hin.now
    have hstep : step s = .next s.writeWord := by rw [step_of_writing hc hr hf, if_pos hrdy]
    rw [run_succ_of_step hstep, Function.iterate_succ_apply]
    obtain rfl | hpos := k.eq_zero_or_pos
    · rfl
    · have hw : s.regs.widx ≠ 3#2 := fun h => by simp [h] at hk; omega
      have hregs : s.writeWord.regs = { s.regs with widx := s.regs.widx + 1#2 } := Regs.afterWrite_of_ne hw
      refine ih hc (by rw [hregs]; exact hf) ?_ (hin.after rfl)
      rw [hregs]
      bv_omega

@[simp] theorem State.writeWord_iterate_cfg (k : Nat) (s : State) : (State.writeWord^[k] s).cfg = s.cfg := by
  induction k with
  | zero => rfl
  | succ k ih => rw [Function.iterate_succ_apply', State.writeWord_cfg, ih]

@[simp] theorem State.writeWord_iterate_inputs (k : Nat) (s : State) :
    (State.writeWord^[k] s).inputs = s.inputs.drop k := by
  induction k with
  | zero => rfl
  | succ k ih => rw [Function.iterate_succ_apply', State.writeWord_inputs, ih, List.tail_drop]

@[simp] theorem State.writeWord_iterate_cycle (k : Nat) (s : State) :
    (State.writeWord^[k] s).cycle = s.cycle + k := by
  induction k with
  | zero => rfl
  | succ k ih => rw [Function.iterate_succ_apply', State.writeWord_cycle, ih, Nat.add_assoc]

/-- The event of write `j` of a sequence of writes that begins in state `s` and runs one a cycle. -/
def State.writeStamp (s : State) (j : Nat) : Stamped :=
  ⟨s.cycle + j, .wr (wrAddr s.cfg (BitVec.ofNat 2 j)) (img s.regs.curPri s.regs.curPw (BitVec.ofNat 2 j))⟩

section
variable {s : State} (hw : s.regs.widx = 0#2)
include hw

/-- Before the fourth write of a sequence only `widx` has changed. -/
theorem State.writeWord_iterate_regs {k : Nat} (hk : k ≤ 3) :
    (State.writeWord^[k] s).regs = { s.regs with widx := BitVec.ofNat 2 k } := by
  induction k with
  | zero => rw [← hw]; rfl
  | succ k ih =>
    have hne : BitVec.ofNat 2 k ≠ 3#2 := by bv_omega
    rw [Function.iterate_succ_apply', State.writeWord_regs, ih (by omega), Regs.afterWrite_of_ne hne,
      BitVec.ofNat_add]

/-- The registers after the fourth write of a sequence (R97, R98). -/
theorem State.writeWord_four_regs : (State.writeWord^[4] s).regs = { s.regs with widx := 3#2 }.afterWrite := by
  rw [Function.iterate_succ_apply', State.writeWord_regs, State.writeWord_iterate_regs hw le_rfl]

/-- The events of the first `k` writes of a sequence, newest first. -/
theorem State.writeWord_iterate_trace {k : Nat} (hk : k ≤ 4) :
    (State.writeWord^[k] s).trace = ((List.range k).map s.writeStamp).reverse ++ s.trace := by
  induction k with
  | zero => rfl
  | succ k ih =>
    rw [Function.iterate_succ_apply', State.writeWord_trace, ih (by omega)]
    simp [List.range_succ, State.writeStamp, State.writeWord_iterate_regs hw (k := k) (by omega)]

/-- The first `k` writes of a sequence leave the image in the first `k` registers. -/
theorem State.writeWord_iterate_ipReg (hc : s.cfg.wf = true) {k : Nat} (hk : k ≤ 4) {i : BitVec 2}
    (hi : i.toNat < k) :
    (State.writeWord^[k] s).ipReg i = some (img s.regs.curPri s.regs.curPw i) := by
  induction k with
  | zero => omega
  | succ k ih =>
    have hregs := State.writeWord_iterate_regs hw (k := k) (by omega)
    rw [Function.iterate_succ_apply', State.writeWord_ipReg (by simpa using hc), State.out_wrData, hregs]
    split_ifs with h
    · rw [h]
    · exact ih (by omega) (by bv_omega)

/-- The four writes of a sequence, with the target ready in each cycle (R97, R98, R211). -/
theorem run_fourWrites (hc : s.cfg.wf = true) (hf : s.regs.fsm = .coldStart ∨ s.regs.fsm = .commitWrite)
    (hin : s.nextInputs 4 fun i => i.rst = false ∧ i.wrReady = true) :
    ∃ t : State, Sys2Proof.core.run 4 s = .next t ∧ t.regs = { s.regs with widx := 3#2 }.afterWrite ∧
      t.cfg = s.cfg ∧ t.inputs = s.inputs.drop 4 ∧
      (∀ i : BitVec 2, t.ipReg i = some (img s.regs.curPri s.regs.curPw i)) ∧
      t.trace = [s.writeStamp 3, s.writeStamp 2, s.writeStamp 1, s.writeStamp 0] ++ s.trace :=
  ⟨State.writeWord^[4] s, run_writeWord hc hf (by simp [hw]) hin, State.writeWord_four_regs hw,
    State.writeWord_iterate_cfg 4 s, State.writeWord_iterate_inputs 4 s,
    fun i => State.writeWord_iterate_ipReg hw hc le_rfl i.isLt, State.writeWord_iterate_trace hw le_rfl⟩

end

/-- LINK_WAIT is left for AWAIT_FRAME when `link_up` comes without `link_err` (R138). -/
theorem step_of_linkUp {s : State} (hc : s.cfg.wf = true) (hr : s.now.rst = false) (hf : s.regs.fsm = .linkWait)
    (he : s.now.linkErr = false) (hu : s.now.linkUp = true) :
    step s = .next (s.edge { s.regs with fsm := .awaitFrame }) := by
  rw [step_arm hc hr]
  simp [armOf, hf, linkWaitArm, he, hu]

/-- The image of the default pair (R99). -/
theorem img_default :
    img Config.DEFAULT_PRI Config.DEFAULT_PW 0#2 = 400#32 ∧ img Config.DEFAULT_PRI Config.DEFAULT_PW 1#2 = 100#32 ∧
      img Config.DEFAULT_PRI Config.DEFAULT_PW 2#2 = 50000#32 ∧
      img Config.DEFAULT_PRI Config.DEFAULT_PW 3#2 = 300#32 := by decide

/-- Settles O53: the four writes of COLD_START from the reset registers, then LINK_WAIT sees the link up. -/
theorem bootWritesTheDefaultImage : Obligations.BootWritesTheDefaultImage := by
  unfold Obligations.BootWritesTheDefaultImage
  intro p i0 i1 i2 i3 i4 rest hp hins hr4 hup herr
  obtain ⟨u, hrun, hregs, hcfg, hinputs, hreg, htrace⟩ :=
    run_fourWrites (s := State.resetWith p (i0 :: i1 :: i2 :: i3 :: i4 :: rest)) rfl hp (.inl rfl)
      ⟨by simp [State.resetWith], hins⟩
  have hlink : u.regs = { Regs.reset with fsm := .linkWait } := hregs
  have hnow : u.now = i4 := State.now_of_inputs hinputs
  have hc : u.cfg.wf = true := by rw [hcfg]; exact hp
  have hstep : step u = .next (u.edge { u.regs with fsm := .awaitFrame }) :=
    step_of_linkUp hc (by rw [hnow, hr4]) (by rw [hlink]) (by rw [hnow, herr]) (by rw [hnow, hup])
  obtain ⟨h0, h1, h2, h3⟩ := img_default
  refine ⟨u.edge { u.regs with fsm := .awaitFrame }, ?_, ?_, ?_, (hreg 0#2).trans (congrArg some h0),
    (hreg 1#2).trans (congrArg some h1), (hreg 2#2).trans (congrArg some h2),
    (hreg 3#2).trans (congrArg some h3), ?_⟩
  · rw [run_add_of_next (n := 1) hrun, run_succ_of_step hstep, run_zero]
  · rw [State.edge_regs, hlink]
  · rw [State.edge_inputs, hinputs]; rfl
  · rw [State.edge_trace, htrace]
    simp [State.writeStamp, State.resetWith, Regs.reset, wrAddr_of_wf hp, h0, h2, h3]

end Sys2Proof.Machine
end

section
/-! PROOFS, family 41_packet_codec.md: the five checks in their order (R110, R113), what the checksum covers (R111,
R118, R121), and DECODING, which records the verdict (R119, R123, R173). -/

namespace Sys2Proof

/-! ## The checks -/

/-- The checks SOM, EOM, LEN and CMD pass (R114 to R117). -/
def Frame.Framed (f : Frame) : Prop :=
  f.som = Config.SOM ∧ f.eom = Config.EOM ∧ f.len = Config.LEN_VAL ∧ f.cmd = Config.CMD_SET

/-- Once the first four checks pass, the checksum decides (R118, R119). -/
theorem Frame.Framed.verdict_eq {f : Frame} (h : f.Framed) :
    verdict f = if checksum f ≠ f.chk then .rejected .checksum else .accepted f.pri f.pw := by
  obtain ⟨hsom, heom, hlen, hcmd⟩ := h
  simp [verdict, hsom, heom, hlen, hcmd]

/-- A frame whose byte 7 is not its checksum is rejected by the fifth check (R118). -/
theorem verdict_of_checksum_ne {f : Frame} (h : f.Framed) (hk : checksum f ≠ f.chk) :
    verdict f = .rejected .checksum := by
  rw [h.verdict_eq, if_pos hk]

/-- A frame whose byte 7 is its checksum is accepted with its operands (R119). -/
theorem verdict_of_checksum_eq {f : Frame} (h : f.Framed) (hk : checksum f = f.chk) :
    verdict f = .accepted f.pri f.pw := by
  rw [h.verdict_eq, if_neg (not_not.mpr hk)]

/-- An accepted frame passed the five checks, and its operands are its bytes 3 to 6 (R72, R119). -/
theorem framed_of_accepted {f : Frame} {pri pw : U16} (h : verdict f = .accepted pri pw) :
    f.Framed ∧ checksum f = f.chk ∧ f.pri = pri ∧ f.pw = pw := by
  unfold verdict at h
  split_ifs at h with hsom heom hlen hcmd hk
  obtain ⟨hpri, hpw⟩ := Verdict.accepted.inj h
  exact ⟨⟨not_not.mp hsom, not_not.mp heom, not_not.mp hlen, not_not.mp hcmd⟩, not_not.mp hk, hpri, hpw⟩

/-! ## The statements about frames -/

/-- Settles O6: an exclusive-or differs when one of its terms does, and a mask that enters it twice cancels. -/
theorem coveredByteErrors : Obligations.CoveredByteErrors := by
  unfold Obligations.CoveredByteErrors
  intro f pri pw b m h
  obtain ⟨hf, hk, rfl, rfl⟩ := framed_of_accepted h
  rw [checksum_eq] at hk
  have hmask : f.cmd ^^^ f.pwHi ^^^ f.pwLo ^^^ f.priHi ^^^ m ^^^ m = f.chk := by
    rw [BitVec.xor_assoc, BitVec.xor_self, BitVec.xor_zero, hk]
  refine ⟨fun hb => verdict_of_checksum_ne hf ?_, fun hb => verdict_of_checksum_ne hf ?_,
    fun hb => verdict_of_checksum_ne hf ?_, fun hb => verdict_of_checksum_ne hf ?_,
    ⟨_, verdict_of_checksum_eq hf ?_⟩, ⟨_, _, verdict_of_checksum_eq hf ?_⟩,
    ⟨_, _, verdict_of_checksum_eq hf ?_⟩⟩ <;> rw [checksum_eq]
  case refine_1 | refine_2 | refine_3 => simpa [← hk] using hb
  case refine_4 => simpa [hk] using hb.symm
  case refine_5 | refine_6 | refine_7 =>
    dsimp only
    exact Eq.trans (by ac_rfl) hmask

/-- Settles O7: byte 6 is in no check, and of the operands only PRI's low byte. -/
theorem priLoIsUnprotected : Obligations.PriLoIsUnprotected := by
  unfold Obligations.PriLoIsUnprotected
  intro f pri pw b h
  obtain ⟨hf, hk, rfl, rfl⟩ := framed_of_accepted h
  have hk' : checksum { f with priLo := b } = f.chk := by rw [← hk, checksum_eq, checksum_eq]
  exact ⟨u16OfBytes f.priHi b, verdict_of_checksum_eq hf hk', by simp [Frame.pri], by simp⟩

/-- Settles O3, check by check. -/
theorem firstFailingCheckDecides : Obligations.FirstFailingCheckDecides := by
  unfold Obligations.FirstFailingCheckDecides
  intro f
  refine ⟨fun hsom => if_pos hsom, fun hsom heom => ?_, fun hsom heom hlen => ?_, fun hsom heom hlen hcmd => ?_,
    fun hsom heom hlen hcmd hk => ?_, fun hsom heom hlen hcmd hk => ?_, rfl, rfl, rfl, rfl, rfl⟩
  · simp [verdict, Config.SOM, Config.EOM, hsom, heom]
  · simp [verdict, Config.SOM, Config.EOM, Config.LEN_VAL, hsom, heom, hlen]
  · simp [verdict, Config.SOM, Config.EOM, Config.LEN_VAL, Config.CMD_SET, hsom, heom, hlen, hcmd]
  · exact verdict_of_checksum_ne ⟨hsom, heom, hlen, hcmd⟩ (by rwa [checksum_eq])
  · exact ⟨f.pri, f.pw, verdict_of_checksum_eq ⟨hsom, heom, hlen, hcmd⟩ (by rwa [checksum_eq]),
      u16OfBytes_toNat _ _, u16OfBytes_toNat _ _⟩

/-- Settles O5: the decoding of a SETP frame turns on its K. -/
theorem wrongChecksumByteIsRejected : Obligations.WrongChecksumByteIsRejected := by
  unfold Obligations.WrongChecksumByteIsRejected
  intro pri pw k hk
  rw [← setpChecksum_eq] at hk
  calc decode .frame (setpFrame pri pw k).toBytes
    _ = .ok (decodeFrame (setpFrame pri pw k)) := decode_frame_toBytes _
    _ = .ok .errChecksum := by rw [decodeFrame_setpFrame, if_neg hk]

end Sys2Proof

namespace Sys2Proof.Machine

/-! ## DECODING -/

/-- The row of a rejection runs it (R114 to R118). -/
theorem exec_rejectInstr (k : Reject) (s : State) : exec k.instr s = .next (reject k s) := by
  cases k <;> rfl

section
variable {s : State} (hr : s.now.rst = false) (hf : s.regs.fsm = .decoding)
include hr hf

/-- SETP in DECODING records the verdict on its frame, which its K decides (R118, R119). -/
theorem exec_setp_of_decoding (pri pw : U16) (k : Byte) :
    exec (.setp pri pw k) s =
      .next (recordVerdict (if k = setpChecksum pri pw then .accepted pri pw else .rejected .checksum) s) := by
  have hd : s.decodingNow = true := s.decodingNow_iff.mpr ⟨hr, hf⟩
  rw [← verdict_setpFrame]
  simp [exec, execSetp, hd]

/-- A rejection in DECODING is recorded (R173). -/
theorem exec_rejectInstr_of_decoding (k : Reject) :
    exec k.instr s = .next (s.edge (s.regs.takeRejection k.code)) := by
  obtain ⟨-, he⟩ | ⟨hd, -⟩ := reject_cases k s
  · rw [exec_rejectInstr, he]
  · exact absurd (s.decodingNow_iff.mpr ⟨hr, hf⟩) (by simp [hd])

/-- A step of DECODING records the verdict on `buf` (R123). -/
theorem step_of_decoding (hc : s.cfg.wf = true) : step s = .next (recordVerdict (verdict s.regs.buf) s) := by
  rw [step_arm hc hr]
  simp only [armOf, hf]

end

/-- Settles O20: with R75's K the verdict recorded is the acceptance. -/
theorem setpIsAccepted : Obligations.SetpIsAccepted := by
  unfold Obligations.SetpIsAccepted
  intro s pri pw k hr hf hk
  rw [exec_setp_of_decoding hr hf, if_pos (hk.trans (setpChecksum_eq pri pw).symm)]
  rfl

/-- Settles O21: with another K the verdict recorded is the checksum rejection. -/
theorem illFormedSetpTakesTheChecksumRejection : Obligations.IllFormedSetpTakesTheChecksumRejection := by
  unfold Obligations.IllFormedSetpTakesTheChecksumRejection
  intro s pri pw k hr hf hk
  rw [← setpChecksum_eq] at hk
  rw [exec_setp_of_decoding hr hf, if_neg hk]
  rfl

/-- Settles O22: each listed pair is the row and the code of a rejection. -/
theorem rejectionsAreRecorded : Obligations.RejectionsAreRecorded := by
  unfold Obligations.RejectionsAreRecorded
  intro s hr hf x hx
  have hrow : ∃ k : Reject, x = (k.instr, k.code) := by
    simp only [List.mem_cons, List.not_mem_nil, or_false] at hx
    obtain rfl | rfl | rfl | rfl | rfl := hx
    · exact ⟨.startOfMessage, rfl⟩
    · exact ⟨.endOfMessage, rfl⟩
    · exact ⟨.messageLength, rfl⟩
    · exact ⟨.commandCode, rfl⟩
    · exact ⟨.checksum, rfl⟩
  obtain ⟨k, rfl⟩ := hrow
  exact exec_rejectInstr_of_decoding hr hf k

/-- Settles O31, by the verdict recorded. -/
theorem decodingArm : Obligations.DecodingArm := by
  unfold Obligations.DecodingArm
  intro s hc hr hf
  refine ⟨fun k hv => ?_, fun pri pw hv => ?_⟩ <;> rw [step_of_decoding hr hf hc, hv] <;> rfl

end Sys2Proof.Machine
end

section
/-! PROOFS, family 42_transport.md: reception (R130, R132), the two replies (R133, R134, R135), the link (R138), and
which inputs a cycle samples (R139, R23). -/

namespace Sys2Proof.Machine

/-! ## The replies -/

/-- A reply state sends its byte when the sink is ready, and waits otherwise (R133, R134, R135). -/
theorem step_of_reply {s : State} (hc : s.cfg.wf = true) (hr : s.now.rst = false)
    (hf : s.regs.fsm = .replyErr ∨ s.regs.fsm = .replyOk) :
    step s = .next (if s.now.txReady = true then sendResponse s else s.hold) := by
  have harm : armOf s = replyArm s := by
    obtain hf | hf := hf <;> simp only [armOf, hf]
  have hfire : s.fireTx = true ↔ s.now.txReady = true := by simp [s.fireTx_iff, hr, hf]
  rw [step_arm hc hr, harm, replyArm, if_congr hfire rfl rfl]

/-- The return from a rejection (R133, R174). -/
theorem Regs.afterResponse_of_replyErr {r : Regs} (hf : r.fsm = .replyErr) :
    r.afterResponse = { r with fsm := .awaitFrame } :=
  if_neg (by simp [hf])

/-- The acknowledgment sent, the settle wait begins (R134). -/
theorem Regs.afterResponse_of_replyOk {r : Regs} (hf : r.fsm = .replyOk) :
    r.afterResponse = { r with settleCnt := 0#32, fsm := .settle } :=
  if_pos hf

/-- Settles O33: the arm of a reply state, with the return from a rejection. -/
theorem replyErrArm : Obligations.ReplyErrArm := by
  unfold Obligations.ReplyErrArm
  intro s hc hr hf
  rw [step_of_reply hc hr (.inl hf), sendResponse, Regs.afterResponse_of_replyErr hf]
  rfl

/-- Settles O34: the arm of a reply state, with the beginning of the settle wait. -/
theorem replyOkArm : Obligations.ReplyOkArm := by
  unfold Obligations.ReplyOkArm
  intro s hc hr hf
  rw [step_of_reply hc hr (.inr hf), sendResponse, Regs.afterResponse_of_replyOk hf]
  rfl

/-! ## The response items -/

/-- A response that is on `tx_data` and taken is sent (R27). -/
theorem respond_of_fire {k : Byte} {s : State} (hfire : s.fireTx = true) (hk : s.regs.ackR = k) :
    respond k s = sendResponse s := by
  obtain ⟨-, -, e⟩ | ⟨hno, -⟩ := respond_cases k s
  · exact e
  · exact absurd ⟨hfire, hk⟩ hno

/-- The error responses listed are the rows of the rejections, with their codes (R73, R170). -/
theorem exists_reject_of_mem_rows {x : Instr × Byte}
    (hx : x ∈ [(Instr.errStartOfMessage, 0xE1#8), (.errEndOfMessage, 0xE5#8), (.errMessageLength, 0xE2#8),
      (.errCommandCode, 0xE3#8), (.errChecksum, 0xE4#8)]) : ∃ k : Reject, x = (k.instr, k.code) := by
  simp only [List.mem_cons, List.not_mem_nil, or_false] at hx
  obtain rfl | rfl | rfl | rfl | rfl := hx
  · exact ⟨.startOfMessage, rfl⟩
  · exact ⟨.endOfMessage, rfl⟩
  · exact ⟨.messageLength, rfl⟩
  · exact ⟨.commandCode, rfl⟩
  · exact ⟨.checksum, rfl⟩

/-- A rejection whose code is on `tx_data` and taken is sent (R133). -/
theorem exec_rejectInstr_of_fire {k : Reject} {s : State} (hfire : s.fireTx = true) (hk : s.regs.ackR = k.code) :
    exec k.instr s = .next (sendResponse s) := by
  obtain ⟨hd, -⟩ | ⟨-, e⟩ := reject_cases k s
  · obtain ⟨-, hdec⟩ := s.decodingNow_iff.mp hd
    obtain ⟨-, hf, -⟩ := s.fireTx_iff.mp hfire
    simp [hdec] at hf
  · rw [exec_rejectInstr, e, respond_of_fire hfire hk]

/-- Settles O23: each listed pair is the row and the code of a rejection, which is sent. -/
theorem errorResponsesAreSent : Obligations.ErrorResponsesAreSent := by
  unfold Obligations.ErrorResponsesAreSent
  intro s hr hrdy hf x hx hk
  obtain ⟨k, rfl⟩ := exists_reject_of_mem_rows hx
  have hfire : s.fireTx = true := s.fireTx_iff.mpr ⟨hr, .inl hf, hrdy⟩
  rw [exec_rejectInstr_of_fire hfire hk, sendResponse, Regs.afterResponse_of_replyErr hf, ← hk]
  rfl

/-- Settles O24: the acknowledgment is on `tx_data` and is sent. -/
theorem acknowledgmentIsSent : Obligations.AcknowledgmentIsSent := by
  unfold Obligations.AcknowledgmentIsSent
  intro s hr hrdy hf hk
  have hfire : s.fireTx = true := s.fireTx_iff.mpr ⟨hr, .inr hf, hrdy⟩
  have hexec : exec .ackSuccess s = .next (sendResponse s) := congrArg _ (respond_of_fire hfire hk)
  rw [hexec, sendResponse, Regs.afterResponse_of_replyOk hf, ← hk]
  rfl

/-! ## Stalls -/

/-- Settles O48: a port state whose sink or target is not ready lets the cycle pass, so its offer stays. -/
theorem stalledOffersAreHeld : Obligations.StalledOffersAreHeld := by
  unfold Obligations.StalledOffersAreHeld
  intro s t hst hr ht
  obtain ⟨hc, -⟩ := step_cases hst
  refine ⟨fun hval hrdy => ?_, fun hval hrdy => ?_⟩
  · obtain ⟨-, hf⟩ := s.out_txValid_iff.mp hval
    rw [step_of_reply hc hr hf, if_neg (by simp [hrdy])] at hst
    obtain rfl := Host.Outcome.next.inj hst
    exact ⟨(State.out_txValid_iff _).mpr ⟨ht, hf⟩, rfl⟩
  · obtain ⟨-, hf⟩ := s.out_wrValid_iff.mp hval
    rw [step_of_writing hc hr hf, if_neg (by simp [hrdy])] at hst
    obtain rfl := Host.Outcome.next.inj hst
    exact ⟨(State.out_wrValid_iff _).mpr ⟨ht, hf⟩, rfl, rfl⟩

/-! ## The link -/

/-- LINK_WAIT runs its arm (R138). -/
theorem step_of_linkWait {s : State} (hc : s.cfg.wf = true) (hr : s.now.rst = false) (hf : s.regs.fsm = .linkWait) :
    step s = .next (linkWaitArm s) := by
  rw [step_arm hc hr]
  simp only [armOf, hf]

/-- Settles O35, by the two link inputs. (`Machine.linkWaitArm` is the model's own arm.) -/
theorem Transport.linkWaitArm : Obligations.LinkWaitArm := by
  unfold Obligations.LinkWaitArm
  intro s hc hr hf
  rw [step_of_linkWait hc hr hf, Machine.linkWaitArm]
  split_ifs <;> rfl

/-! ## Reception -/

/-- The cycle in which the byte offered is taken (R26, R130). -/
def State.takeRx (s : State) : State := (s.emit (.rx s.now.rxData)).edge (s.regs.takeByte s.now.rxData)

@[simp] theorem State.takeRx_regs (s : State) : s.takeRx.regs = s.regs.takeByte s.now.rxData := rfl
@[simp] theorem State.takeRx_mem (s : State) : s.takeRx.mem = s.mem := rfl
@[simp] theorem State.takeRx_cfg (s : State) : s.takeRx.cfg = s.cfg := rfl
@[simp] theorem State.takeRx_inputs (s : State) : s.takeRx.inputs = s.inputs.tail := rfl
@[simp] theorem State.takeRx_trace (s : State) : s.takeRx.trace = ⟨s.cycle, .rx s.now.rxData⟩ :: s.trace := rfl

/-- The untimed trace after a byte is taken. -/
@[simp] theorem State.takeRx_events (s : State) : s.takeRx.events = s.events ++ [.rx s.now.rxData] :=
  State.events_of_trace s.takeRx_trace

/-- AWAIT_FRAME takes the byte offered, and waits when there is none (R130). -/
theorem step_of_awaitFrame {s : State} (hc : s.cfg.wf = true) (hr : s.now.rst = false)
    (hf : s.regs.fsm = .awaitFrame) :
    step s = .next (if s.now.rxValid = true then s.takeRx else s.hold) := by
  have harm : armOf s = awaitFrameArm s := by simp only [armOf, hf]
  have hfire : s.fireRx = true ↔ s.now.rxValid = true := by simp [s.fireRx_iff, hr, hf]
  rw [step_arm hc hr, harm, awaitFrameArm, if_congr hfire rfl rfl]
  rfl

/-- Reception, by the count as a bit vector (R130). -/
theorem Regs.takeByte_eq (r : Regs) (b : Byte) :
    r.takeByte b =
      if r.cnt = 8#4 then { r with buf := r.buf.set r.cnt.toNat b, cnt := 0#4, fsm := .decoding }
      else { r with buf := r.buf.set r.cnt.toNat b, cnt := r.cnt + 1#4 } :=
  if_congr r.lastByte_iff rfl rfl

/-- Settles O32: the byte goes to index `cnt` of the list of bytes. (`Machine.awaitFrameArm` is the model's own arm.) -/
theorem Transport.awaitFrameArm : Obligations.AwaitFrameArm := by
  unfold Obligations.AwaitFrameArm
  intro s hc hr hf hcnt
  rw [step_of_awaitFrame hc hr hf]
  refine ⟨fun hval => ?_,
    fun hval => ⟨s.regs.buf.set s.regs.cnt.toNat s.now.rxData, Frame.toBytes_set _ _ _ hcnt, ?_⟩⟩
  · rw [if_neg (by simp [hval])]
    rfl
  · rw [if_pos hval, State.takeRx, Regs.takeByte_eq]
    rfl

/-- Once byte `i` is placed, the first `i + 1` bytes are the `i` before it and that byte (R31). -/
theorem Frame.take_toBytes_set (f : Frame) {i : Nat} (b : Byte) (hi : i ≤ 8) :
    (f.set i b).toBytes.take (i + 1) = f.toBytes.take i ++ [b] := by
  have hlen : i < f.toBytes.length := Nat.lt_succ_of_le hi
  rw [Frame.toBytes_set f i b hi, ← List.take_append_getElem (by simpa using hlen), List.getElem_set_self,
    List.take_set_of_le le_rfl]

/-- A frame is determined by its bytes (R71). -/
theorem Frame.toBytes_injective : Function.Injective Frame.toBytes := fun f g h => by
  simpa using congrArg Frame.ofBytes h

/-- A byte offered in AWAIT_FRAME is taken, whatever its value and the other inputs (R130). -/
theorem step_of_offer {s : State} {i : Config.Inputs} (hc : s.cfg.wf = true) (hf : s.regs.fsm = .awaitFrame)
    (hnow : s.now = i) (hi : i.rst = false ∧ i.rxValid = true) : step s = .next s.takeRx := by
  subst hnow
  obtain ⟨hr, hval⟩ := hi
  rw [step_of_awaitFrame hc hr hf, if_pos hval]

/-- The bytes that `buf` still lacks, offered one a cycle, complete the frame and start DECODING (R130, R132): by
induction on the bytes after the first of them. -/
theorem run_takeRx {s : State} {f : Frame} {i : Config.Inputs} {is rest : List Config.Inputs}
    (hc : s.cfg.wf = true) (hf : s.regs.fsm = .awaitFrame) (hcnt : s.regs.cnt.toNat + is.length = 8)
    (hoff : ∀ j ∈ i :: is, j.rst = false ∧ j.rxValid = true) (hin : s.inputs = i :: is ++ rest)
    (hbuf : f.toBytes = s.regs.buf.toBytes.take s.regs.cnt.toNat ++ (i :: is).map Config.Inputs.rxData) :
    ∃ t : State, Sys2Proof.core.run (is.length + 1) s = .next t ∧
      t.regs = { s.regs with buf := f, cnt := 0#4, fsm := .decoding } ∧ t.inputs = rest ∧ t.mem = s.mem ∧
      t.events = s.events ++ ((i :: is).map Config.Inputs.rxData).map .rx := by
  induction is generalizing i s with
  | nil =>
    have hnow : s.now = i := State.now_of_inputs hin
    rw [List.length_nil, Nat.add_zero] at hcnt
    have h8 : s.regs.cnt = 8#4 := BitVec.eq_of_toNat_eq hcnt
    have hfull : s.regs.buf.set s.regs.cnt.toNat i.rxData = f := by
      apply Frame.toBytes_injective
      rw [hbuf, List.map_singleton, ← Frame.take_toBytes_set _ _ hcnt.le, h8]
      rfl
    refine ⟨s.takeRx, ?_, ?_, by simp [hin], rfl, by simp [hnow]⟩
    · exact run_succ_of_step (step_of_offer hc hf hnow (hoff i (by simp)))
    · rw [State.takeRx_regs, Regs.takeByte_eq, if_pos h8, hnow, hfull]
  | cons j is ih =>
    have hnow : s.now = i := State.now_of_inputs hin
    rw [List.length_cons] at hcnt
    have h8 : s.regs.cnt ≠ 8#4 := fun h => by simp [h] at hcnt
    have hregs : s.takeRx.regs =
        { s.regs with buf := s.regs.buf.set s.regs.cnt.toNat i.rxData, cnt := s.regs.cnt + 1#4 } := by
      rw [State.takeRx_regs, Regs.takeByte_eq, if_neg h8, hnow]
    have hsucc : s.takeRx.regs.cnt.toNat = s.regs.cnt.toNat + 1 := by
      rw [hregs]
      show (s.regs.cnt + 1#4).toNat = s.regs.cnt.toNat + 1
      bv_omega
    have hlacks : f.toBytes = s.takeRx.regs.buf.toBytes.take s.takeRx.regs.cnt.toNat ++
        (j :: is).map Config.Inputs.rxData := by
      rw [hsucc, hregs, Frame.take_toBytes_set _ _ (by omega), hbuf, List.map_cons, List.append_assoc]
      rfl
    obtain ⟨t, hrun, ht, hinputs, hmem, hevents⟩ := ih (i := j) (s := s.takeRx) hc (by rw [hregs]; exact hf)
      (by omega) (fun k hk => hoff k (List.mem_cons_of_mem i hk)) (by simp [hin]) hlacks
    refine ⟨t, ?_, ?_, hinputs, hmem, ?_⟩
    · rw [List.length_cons, run_succ_of_step (step_of_offer hc hf hnow (hoff i (by simp))), hrun]
    · rw [ht, hregs]
    · rw [hevents, State.takeRx_events, hnow]
      simp

/-- Settles O50: `buf` lacks all nine bytes when `cnt` is 0. -/
theorem nineBytesMakeAFrame : Obligations.NineBytesMakeAFrame := by
  unfold Obligations.NineBytesMakeAFrame
  intro s f ins rest hc hf hcnt hoff hbytes hin
  cases ins with
  | nil => simp [Frame.toBytes] at hbytes
  | cons i is =>
    have hlen : is.length = 8 := by simpa [Frame.toBytes] using congrArg List.length hbytes
    rw [← hbytes]
    simpa [hlen] using run_takeRx hc hf (by simp [hcnt, hlen]) hoff hin (by simp [hcnt, hbytes])

/-! ## Sampled inputs -/

/-- The state `s` in a cycle that samples `i`, with the inputs `rest` after it (R23). -/
def State.sampling (s : State) (i : Config.Inputs) (rest : List Config.Inputs) : State :=
  { s with inputs := i :: rest }

@[simp] theorem State.sampling_now (s : State) (i : Config.Inputs) (rest : List Config.Inputs) :
    (s.sampling i rest).now = i := rfl

/-- Settles O47: a refusal and a reset edge sample nothing but `rst`; otherwise the step of each state reads the inputs
named for it, and what it does with them spends the cycle's inputs, whatever they are. -/
theorem unsampledInputsHaveNoEffect : Obligations.UnsampledInputsHaveNoEffect := by
  unfold Obligations.UnsampledInputsHaveNoEffect
  intro s i j rest hrst hlink hrx htx hwr
  change step (s.sampling i rest) = step (s.sampling j rest)
  by_cases hc : s.cfg.wf = true
  case neg => rw [(step_refused_iff (s.sampling i rest)).mpr hc, (step_refused_iff (s.sampling j rest)).mpr hc]
  cases hj : j.rst with
  | true =>
    rw [step_reset (s := s.sampling i rest) hc (hrst.trans hj), step_reset (s := s.sampling j rest) hc hj]
    rfl
  | false =>
    have hi : i.rst = false := hrst.trans hj
    cases hf : s.regs.fsm
    case coldStart | commitWrite =>
      have hw : s.regs.fsm = .coldStart ∨ s.regs.fsm = .commitWrite := by simp [hf]
      rw [step_of_writing (s := s.sampling i rest) hc hi hw, step_of_writing (s := s.sampling j rest) hc hj hw,
        State.sampling_now, State.sampling_now, hwr hw]
      rfl
    case replyErr | replyOk =>
      have hreply : s.regs.fsm = .replyErr ∨ s.regs.fsm = .replyOk := by simp [hf]
      rw [step_of_reply (s := s.sampling i rest) hc hi hreply, step_of_reply (s := s.sampling j rest) hc hj hreply,
        State.sampling_now, State.sampling_now, htx hreply]
      rfl
    case awaitFrame =>
      obtain ⟨hval, hdata⟩ := hrx hf
      rw [step_of_awaitFrame (s := s.sampling i rest) hc hi hf, step_of_awaitFrame (s := s.sampling j rest) hc hj hf,
        State.sampling_now, State.sampling_now, ← hval]
      split_ifs with h
      · rw [State.takeRx, State.takeRx, State.sampling_now, State.sampling_now, hdata h]
        rfl
      · rfl
    case linkWait =>
      obtain ⟨hup, herr⟩ := hlink hf
      rw [step_of_linkWait (s := s.sampling i rest) hc hi hf, step_of_linkWait (s := s.sampling j rest) hc hj hf,
        linkWaitArm, linkWaitArm, State.sampling_now, State.sampling_now, hup, herr]
      rfl
    case decoding | fatal | settle | maybeCommit =>
      rw [step_arm (s := s.sampling i rest) hc hi, step_arm (s := s.sampling j rest) hc hj]
      have harm : armOf (s.sampling i rest) = armOf (s.sampling j rest) := by
        simp only [armOf, State.sampling, hf]
        rfl
      rw [harm]

end Sys2Proof.Machine
end

section
/-! PROOFS, family 43_control_loop.md: the step function (R145), its state graph (R146), the arms SETTLE (R147) and
MAYBE_COMMIT (R148), the image as an identity of pairs (R149), SETP end to end (R151, R152), and the source's loop as the
specification of every run (R155). -/

namespace Sys2Proof.Machine

/-! ## The image -/

/-- Settles O10: REG4 gives back the PRI and REG2 the PW, since neither row wraps. -/
theorem registerImageIsInjective : Obligations.RegisterImageIsInjective := by
  unfold Obligations.RegisterImageIsInjective
  intro pri pw pri' pw'
  constructor
  · intro h
    have hpri := congrArg BitVec.toNat (h 2#2)
    have hpw := congrArg BitVec.toNat (h 0#2)
    rw [img_two_toNat, img_two_toNat] at hpri
    rw [img_zero_toNat, img_zero_toNat] at hpw
    exact ⟨BitVec.eq_of_toNat_eq (by omega), BitVec.eq_of_toNat_eq (by omega)⟩
  · rintro ⟨rfl, rfl⟩ i
    rfl

/-! ## The step function -/

/-- A cycle that processes an item is that item's meaning (R145). -/
theorem step_of_fetch {s : State} {i : Instr} (hc : s.cfg.wf = true) (hr : s.now.rst = false)
    (h : fetch s = some i) : step s = exec i s := by
  simp [step, hc, hr, h]

/-- The item of DECODING is the frame in `buf` (R123). -/
theorem fetch_of_decoding {s : State} (hf : s.regs.fsm = .decoding) : fetch s = some (decodeFrame s.regs.buf) := by
  simp only [fetch, hf]

/-- The item of a reply state is the byte on `tx_data` (R133, R134). -/
theorem fetch_of_reply {s : State} (hf : s.regs.fsm = .replyErr ∨ s.regs.fsm = .replyOk) :
    fetch s = decodeResp s.out.txData := by
  obtain hf | hf := hf <;> simp only [fetch, hf, State.out_txData]

/-- The item of a writing state is the write of the offset that `widx` selects (R97, R98). -/
theorem fetch_of_writing {s : State} (hf : s.regs.fsm = .coldStart ∨ s.regs.fsm = .commitWrite) :
    fetch s = decodeRegbus (wrOffset s.regs.widx) := by
  obtain hf | hf := hf <;> simp only [fetch, hf]

/-- The offset of a write fits its byte (R74). -/
theorem offsetByte_toNat (w : BitVec 2) : (BitVec.ofNat 8 (4 * (w.toNat + 1))).toNat = wrOffset w := by
  rw [wrOffset_eq, BitVec.toNat_ofNat]
  omega

/-- Settles O11: what the bytes decode to is what the step fetches. -/
theorem stepRunsTheDecodedItem : Obligations.StepRunsTheDecodedItem := by
  unfold Obligations.StepRunsTheDecodedItem
  intro s i hc hr
  refine ⟨fun hf hi => ?_, fun hf hi => ?_, fun hf hi => ?_⟩
  · rw [decode_frame_toBytes] at hi
    exact step_of_fetch hc hr ((fetch_of_decoding hf).trans (congrArg some (Except.ok.inj hi)))
  · obtain ⟨b, hb, hi⟩ := decode_resp_ok_iff.mp hi
    obtain rfl := List.singleton_inj.mp hb
    exact step_of_fetch hc hr ((fetch_of_reply hf).trans hi)
  · obtain ⟨b, hb, hi⟩ := decode_regbus_ok_iff.mp hi
    obtain rfl := List.singleton_inj.mp hb
    rw [offsetByte_toNat] at hi
    exact step_of_fetch hc hr ((fetch_of_writing hf).trans hi)

/-- Settles O12: a step is the reset edge or the arm of the current state. -/
theorem stepIsTotal : Obligations.StepIsTotal := by
  unfold Obligations.StepIsTotal
  intro s hc
  cases hr : s.now.rst with
  | true => exact ⟨_, step_reset hc hr⟩
  | false => exact ⟨_, step_arm hc hr⟩

/-! ## The arms of SETTLE and MAYBE_COMMIT -/

/-- The end of the settle wait as an equation (R147). -/
theorem Regs.settleDone_iff (r : Regs) (p : Config.Params) :
    r.settleDone p = true ↔ r.settleCnt.toNat = p.settleCycles - 1 := beq_iff_eq

/-- The suppression of a commit as equations (R148). -/
theorem Regs.suppressed_iff (r : Regs) :
    r.suppressed = true ↔ r.lastValid = true ∧ r.curPri = r.lastPri ∧ r.curPw = r.lastPw := by
  simp [Regs.suppressed, and_assoc]

/-- SETTLE counts, or ends when the count is complete (R147). -/
theorem step_of_settle {s : State} (hc : s.cfg.wf = true) (hr : s.now.rst = false) (hf : s.regs.fsm = .settle) :
    step s = .next (s.edge
      (if s.regs.settleCnt.toNat = s.cfg.settleCycles - 1 then { s.regs with fsm := .maybeCommit }
      else { s.regs with settleCnt := s.regs.settleCnt + 1#32 })) := by
  have harm : armOf s = settleArm s := by simp only [armOf, hf]
  rw [step_arm hc hr, harm, settleArm, if_congr (s.regs.settleDone_iff s.cfg) rfl rfl, apply_ite s.edge]

/-- MAYBE_COMMIT returns to AWAIT_FRAME for the pair committed last, and begins the writes for another (R148). -/
theorem step_of_maybeCommit {s : State} (hc : s.cfg.wf = true) (hr : s.now.rst = false)
    (hf : s.regs.fsm = .maybeCommit) :
    step s = .next (s.edge
      (if s.regs.lastValid = true ∧ s.regs.curPri = s.regs.lastPri ∧ s.regs.curPw = s.regs.lastPw
      then { s.regs with fsm := .awaitFrame }
      else { s.regs with widx := 0#2, fsm := .commitWrite })) := by
  have harm : armOf s = maybeCommitArm s := by simp only [armOf, hf]
  rw [step_arm hc hr, harm, maybeCommitArm, if_congr s.regs.suppressed_iff rfl rfl, apply_ite s.edge]

/-- Settles O36. (`Machine.settleArm` is the model's own arm.) -/
theorem ControlLoop.settleArm : Obligations.SettleArm := by
  unfold Obligations.SettleArm
  intro s hc hr hf
  exact step_of_settle hc hr hf

/-- Settles O37. (`Machine.maybeCommitArm` is the model's own arm.) -/
theorem ControlLoop.maybeCommitArm : Obligations.MaybeCommitArm := by
  unfold Obligations.MaybeCommitArm
  intro s hc hr hf
  exact step_of_maybeCommit hc hr hf

/-! ## The state graph -/

/-- The state after a write: the fourth ends the sequence (R97, R98). -/
theorem Regs.afterWrite_fsm {r : Regs} (hf : r.fsm = .coldStart ∨ r.fsm = .commitWrite) :
    r.afterWrite.fsm =
      if r.widx = 3#2 then (if r.fsm = .coldStart then .linkWait else .awaitFrame) else r.fsm := by
  obtain hf | hf := hf
  · rw [Regs.afterWrite_of_coldStart hf, apply_ite Regs.fsm, if_pos hf]
  · rw [Regs.afterWrite_of_commitWrite hf, apply_ite Regs.fsm]
    simp [hf]

/-- The state after a verdict (R123). -/
theorem recordVerdict_fsm (v : Verdict) (s : State) :
    (recordVerdict v s).regs.fsm = if ∃ pri pw, v = .accepted pri pw then .replyOk else .replyErr := by
  cases v <;> simp [recordVerdict]

/-- Settles O19, state by state: each has its arm's step. -/
theorem stateGraph : Obligations.StateGraph := by
  unfold Obligations.StateGraph
  intro s t h
  obtain ⟨hc, ⟨hr, rfl⟩ | ⟨hr, -⟩⟩ := step_cases h
  · rw [if_pos hr]; rfl
  rw [if_neg (by simp [hr])]
  cases hf : s.regs.fsm
  case coldStart | commitWrite =>
    have hw : s.regs.fsm = .coldStart ∨ s.regs.fsm = .commitWrite := by simp [hf]
    rw [step_of_writing hc hr hw] at h
    cases h
    rw [apply_ite State.regs, apply_ite Regs.fsm, State.writeWord_regs, Regs.afterWrite_fsm hw]
    simp [hf, ite_and]
  case replyErr | replyOk =>
    rw [step_of_reply hc hr (by simp [hf])] at h
    cases h
    rw [apply_ite State.regs, apply_ite Regs.fsm, sendResponse_regs]
    simp [Regs.afterResponse, hf]
  case awaitFrame =>
    rw [step_of_awaitFrame hc hr hf] at h
    cases h
    rw [apply_ite State.regs, apply_ite Regs.fsm, State.takeRx_regs, Regs.takeByte_eq, apply_ite Regs.fsm]
    simp [hf, ite_and]
  case linkWait =>
    rw [step_of_linkWait hc hr hf] at h
    cases h
    unfold linkWaitArm
    split_ifs <;> simp [hf]
  case decoding =>
    rw [step_of_decoding hr hf hc] at h
    cases h
    exact recordVerdict_fsm _ s
  case settle =>
    rw [step_of_settle hc hr hf] at h
    cases h
    rw [State.edge_regs, apply_ite Regs.fsm, hf]
  case maybeCommit =>
    rw [step_of_maybeCommit hc hr hf] at h
    cases h
    rw [State.edge_regs, apply_ite Regs.fsm]
  case fatal =>
    rw [step_arm hc hr] at h
    cases h
    simp [armOf, hf]

/-! ## The settle wait -/

/-- A premise about the coming cycles, at the end of the first `m` of them. -/
theorem State.nextInputs.drop {s t : State} {m n : Nat} {P : Config.Inputs → Prop} (h : s.nextInputs (m + n) P)
    (ht : t.inputs = s.inputs.drop m) : t.nextInputs n P := by
  obtain ⟨hl, hP⟩ := h
  rw [List.take_add] at hP
  refine ⟨by rw [ht, List.length_drop]; omega, fun i hi => hP i ?_⟩
  rw [ht] at hi
  exact List.mem_append_right _ hi

/-- `s` after `k` cycles that change no register but `settle_cnt`, which has counted them from 0 (R147). -/
def State.settling (s : State) (k : Nat) : State :=
  { s with
    regs := { s.regs with settleCnt := BitVec.ofNat 32 k }, inputs := s.inputs.drop k, cycle := s.cycle + k }

/-- `s` after the whole settle wait (R147). -/
def State.settled (s : State) : State :=
  { s with
    regs := { s.regs with settleCnt := BitVec.ofNat 32 (s.cfg.settleCycles - 1), fsm := .maybeCommit }
    inputs := s.inputs.drop s.cfg.settleCycles
    cycle := s.cycle + s.cfg.settleCycles }

theorem State.settling_zero {s : State} (h0 : s.regs.settleCnt = 0#32) : s.settling 0 = s := by
  have hregs : { s.regs with settleCnt := BitVec.ofNat 32 0 } = s.regs := by rw [← h0]
  rw [State.settling, hregs]
  rfl

section
variable {s : State} (hc : s.cfg.wf = true) (hf : s.regs.fsm = .settle)
include hc hf

/-- Cycle `k` of the settle wait tests the count `k` (R147). -/
theorem step_settling {k : Nat} (hk : k < s.cfg.settleCycles) (hr : s.noReset (k + 1)) :
    step (s.settling k) = .next ((s.settling k).edge
      (if k = s.cfg.settleCycles - 1 then { (s.settling k).regs with fsm := .maybeCommit }
      else { (s.settling k).regs with settleCnt := BitVec.ofNat 32 k + 1#32 })) := by
  obtain ⟨-, -, hmax, -⟩ := (wf_iff s.cfg).mp hc
  have hnow : (s.settling k).now.rst = false := (State.nextInputs.drop (n := 1) hr rfl).now
  have hcnt : (s.settling k).regs.settleCnt.toNat = k :=
    (BitVec.toNat_ofNat k 32).trans (Nat.mod_eq_of_lt (by omega))
  rw [step_of_settle (s := s.settling k) hc hnow hf, hcnt]
  rfl

/-- The settle wait before its last cycle (R147). -/
theorem run_settling (h0 : s.regs.settleCnt = 0#32) {k : Nat} (hk : k < s.cfg.settleCycles) (hr : s.noReset k) :
    Sys2Proof.core.run k s = .next (s.settling k) := by
  induction k with
  | zero => rw [State.settling_zero h0, run_zero]
  | succ k ih =>
    have hstep := step_settling hc hf (by omega) hr
    rw [if_neg (by omega)] at hstep
    rw [run_add_of_next (ih (by omega) (hr.mono k.le_succ)), run_succ_of_step hstep, run_zero]
    simp [State.settling, State.edge, BitVec.ofNat_add, Nat.add_assoc]

/-- The whole settle wait (R147). -/
theorem run_settled (h0 : s.regs.settleCnt = 0#32) (hr : s.noReset s.cfg.settleCycles) :
    Sys2Proof.core.run s.cfg.settleCycles s = .next s.settled := by
  obtain ⟨hclk, hsettle, -⟩ := (wf_iff s.cfg).mp hc
  obtain ⟨k, hk⟩ : ∃ k, s.cfg.settleCycles = k + 1 := Nat.exists_eq_add_of_le' (hclk.trans hsettle)
  rw [hk] at hr
  have hstep := step_settling hc hf (by omega) hr
  rw [if_pos (by omega)] at hstep
  rw [hk, run_add_of_next (run_settling hc hf h0 (by omega) (hr.mono k.le_succ)), run_succ_of_step hstep, run_zero]
  simp [State.settling, State.settled, State.edge, hk, Nat.add_assoc]

end

/-- Settles O51: the count passes every number below SETTLE_CYCLES - 1 before the wait ends. -/
theorem settleLastsExactly : Obligations.SettleLastsExactly := by
  unfold Obligations.SettleLastsExactly
  intro s hc hf h0 hr
  exact ⟨fun n hn => ⟨s.settling n, run_settling hc hf h0 hn (hr.mono hn.le), hf⟩,
    s.settled, run_settled hc hf h0 hr, rfl⟩

/-! ## A frame end to end -/

/-- The untimed trace after a response. -/
@[simp] theorem sendResponse_events (s : State) : (sendResponse s).events = s.events ++ [.tx s.regs.ackR] :=
  State.events_of_trace (sendResponse_trace s)

/-- Settles O56: DECODING records the rejection, REPLY_ERR sends its code. -/
theorem rejectionLeavesEverythingElse : Obligations.RejectionLeavesEverythingElse := by
  unfold Obligations.RejectionLeavesEverythingElse
  intro s k hc hf hv hin
  obtain ⟨hr, -, -⟩ := hin.now
  have hdecode : step s = .next (s.edge (s.regs.takeRejection k.code)) := by
    rw [step_of_decoding hr hf hc, hv]
    rfl
  obtain ⟨hr', hrdy, -⟩ := (hin.after (t := s.edge (s.regs.takeRejection k.code)) rfl).now
  have hreply := step_of_reply (s := s.edge (s.regs.takeRejection k.code)) hc hr' (.inl rfl)
  rw [if_pos hrdy] at hreply
  exact ⟨sendResponse (s.edge (s.regs.takeRejection k.code)),
    by rw [run_succ_of_step hdecode, run_succ_of_step hreply, run_zero], rfl, rfl, sendResponse_events _⟩

/-- An accepted frame up to the end of the settle wait, with the sink ready (R119, R134, R147): `SETTLE_CYCLES + 2`
cycles send 0xA1 and change only the registers of these three arms. -/
theorem run_accepted {s : State} {pri pw : U16} (hc : s.cfg.wf = true) (hf : s.regs.fsm = .decoding)
    (hv : verdict s.regs.buf = .accepted pri pw) (hin : s.eager (s.cfg.settleCycles + 2)) :
    ∃ t : State, Sys2Proof.core.run (s.cfg.settleCycles + 2) s = .next t ∧
      t.regs =
        { s.regs with
          fsm := .maybeCommit, ackR := Config.ACK_SUCCESS, curPri := pri, curPw := pw
          settleCnt := BitVec.ofNat 32 (s.cfg.settleCycles - 1) } ∧
      t.mem = s.mem ∧ t.cfg = s.cfg ∧ t.inputs = s.inputs.drop (s.cfg.settleCycles + 2) ∧
      t.events = s.events ++ [.tx Config.ACK_SUCCESS] := by
  obtain ⟨hr, -, -⟩ := hin.now
  have hdecode : step s = .next (s.edge (s.regs.accept pri pw)) := by
    rw [step_of_decoding hr hf hc, hv]
    rfl
  have hin' := hin.after (t := s.edge (s.regs.accept pri pw)) rfl
  obtain ⟨hr', hrdy, -⟩ := hin'.now
  have hreply := step_of_reply (s := s.edge (s.regs.accept pri pw)) hc hr' (.inr rfl)
  rw [if_pos hrdy] at hreply
  have hwait := run_settled (s := sendResponse (s.edge (s.regs.accept pri pw))) hc rfl rfl
    ((hin'.after rfl).imp fun i hi => hi.1)
  refine ⟨(sendResponse (s.edge (s.regs.accept pri pw))).settled, ?_, rfl, rfl, rfl, ?_, ?_⟩
  · rw [run_succ_of_step hdecode, run_succ_of_step hreply]
    exact hwait
  · exact List.drop_tail.trans List.drop_tail
  · exact sendResponse_events _

/-- Settles O55: after the settle wait MAYBE_COMMIT finds the pair committed last. -/
theorem duplicateSetpWritesNothing : Obligations.DuplicateSetpWritesNothing := by
  unfold Obligations.DuplicateSetpWritesNothing
  intro s pri pw hc hf hv hvalid hpri hpw hin
  obtain ⟨u, hrun, hregs, hmem, hcfg, hinputs, hevents⟩ := run_accepted hc hf hv (hin.mono (by omega))
  obtain ⟨hr, -, -⟩ := (State.nextInputs.drop (n := 1) hin hinputs).now
  have hstep := step_of_maybeCommit (by rw [hcfg, hc]) hr (by rw [hregs])
  rw [if_pos (by simp [hregs, hvalid, hpri, hpw])] at hstep
  refine ⟨u.edge { u.regs with fsm := .awaitFrame }, ?_, ?_, hmem, hevents⟩
  · rw [run_add_of_next (n := 1) hrun, run_succ_of_step hstep, run_zero]
  · rw [State.edge_regs, hregs]
    rfl

/-- Settles O54: after the settle wait MAYBE_COMMIT begins the four writes, the fourth of which records the pair. -/
theorem setpCommitsEndToEnd : Obligations.SetpCommitsEndToEnd := by
  unfold Obligations.SetpCommitsEndToEnd
  intro s pri pw hc hf hv hnew hin
  obtain ⟨u, hrun, hregs, -, hcfg, hinputs, hevents⟩ := run_accepted hc hf hv (hin.mono (by omega))
  have hin' := State.nextInputs.drop (n := 5) hin hinputs
  obtain ⟨hr, -, -⟩ := hin'.now
  have hstep := step_of_maybeCommit (by rw [hcfg, hc]) hr (by rw [hregs])
  rw [if_neg (by rw [hregs]; exact fun ⟨hl, hp, hw⟩ => hnew ⟨hl, hp.symm, hw.symm⟩)] at hstep
  obtain ⟨t, hwrites, htregs, -, -, hreg, htrace⟩ :=
    run_fourWrites (s := u.edge { u.regs with widx := 0#2, fsm := .commitWrite }) rfl (by simp [hcfg, hc]) (.inr rfl)
      ((hin'.after rfl).imp fun i hi => ⟨hi.1, hi.2.2⟩)
  have himg : ∀ i : BitVec 2, t.ipReg i = some (img pri pw i) := by simpa [hregs] using hreg
  refine ⟨t, ?_, ?_, by simp [himg], by simp [himg], by simp [himg], by simp [himg], ?_⟩
  · rw [run_add_of_next (n := 5) hrun, run_succ_of_step hstep, hwrites]
  · rw [htregs, Regs.afterWrite_of_commitWrite rfl, if_pos rfl, State.edge_regs, hregs]
    rfl
  · have hfour : t.events = u.events ++ programEvents s.cfg pri pw := by
      simp [State.events, htrace, State.writeStamp, programEvents, hregs, hcfg]
    rw [hfour, hevents, List.append_assoc]
    rfl

/-! ## Every run refines the source's loop -/

/-- LastCommitted as a value: the pair, or nothing before the first commit (R33, R150). -/
def Regs.committed (r : Regs) : Option (U16 × U16) := if r.lastValid = true then some (r.lastPri, r.lastPw) else none

/-- The writes still owed for an acknowledged pair (R148, R155). -/
def Regs.commitEvents (p : Config.Params) (r : Regs) : List Event :=
  if r.committed = some (r.curPri, r.curPw) then [] else programEvents p r.curPri r.curPw

/-- The events that R155's loop still yields from registers `r` when it goes on to receive the bytes `bs`. In AWAIT_FRAME
the first `cnt` bytes of the frame have been received. -/
def Regs.remaining (p : Config.Params) (r : Regs) (bs : List Byte) : List Event :=
  match r.fsm with
  | .coldStart   => (programEvents p r.curPri r.curPw).drop r.widx.toNat ++ loopTrace p r.committed bs
  | .linkWait    => loopTrace p r.committed bs
  | .fatal       => loopTrace p r.committed bs
  | .awaitFrame  => (loopTrace p r.committed (r.buf.toBytes.take r.cnt.toNat ++ bs)).drop r.cnt.toNat
  | .decoding    =>
    answerEvents p r.committed (verdict r.buf) ++ loopTrace p (lastAfter r.committed (verdict r.buf)) bs
  | .replyErr    => .tx r.ackR :: loopTrace p r.committed bs
  | .replyOk     => .tx r.ackR :: (r.commitEvents p ++ loopTrace p (some (r.curPri, r.curPw)) bs)
  | .settle      => r.commitEvents p ++ loopTrace p (some (r.curPri, r.curPw)) bs
  | .maybeCommit => r.commitEvents p ++ loopTrace p (some (r.curPri, r.curPw)) bs
  | .commitWrite =>
    (programEvents p r.curPri r.curPw).drop r.widx.toNat ++ loopTrace p (some (r.curPri, r.curPw)) bs

/-- The refinement: whatever bytes follow, R155's trace is what has happened and what the registers still owe. -/
def State.Refines (s : State) : Prop :=
  ∀ bs : List Byte, blockTrace s.cfg (s.bytesTaken ++ bs) = s.events ++ s.regs.remaining s.cfg bs

/-! ### The loop's trace -/

/-- A frame has the first `i` bytes for every count `i` (R32, R71). -/
theorem Frame.length_take_toBytes (f : Frame) {i : Nat} (hi : i ≤ 8) : (f.toBytes.take i).length = i :=
  List.length_take_of_le (Nat.le_succ_of_le hi)

/-- The loop receives up to nine bytes before it answers (R155). -/
theorem take_loopTrace (p : Config.Params) (last : Option (U16 × U16)) (bs : List Byte) :
    (loopTrace p last bs).take 9 = (bs.take 9).map .rx := by
  unfold loopTrace
  split
  · rfl
  · exact List.map_take.symm

/-- A frame received is answered, and the loop goes on with what it left committed (R155). -/
theorem loopTrace_frame (p : Config.Params) (last : Option (U16 × U16)) (f : Frame) (bs : List Byte) :
    loopTrace p last (f.toBytes ++ bs) =
      f.toBytes.map .rx ++ (answerEvents p last (verdict f) ++ loopTrace p (lastAfter last (verdict f)) bs) := rfl

/-- The loop on fewer than nine bytes only receives them (R155). -/
theorem drop_length_loopTrace (p : Config.Params) (last : Option (U16 × U16)) {bs : List Byte} (h : bs.length < 9) :
    (loopTrace p last bs).drop bs.length = [] := by
  unfold loopTrace
  split
  · simp at h
    omega
  · simp

/-- After the bytes 0 to `k - 1` of a frame, the loop's next event is receiving byte `k` (R155). -/
theorem drop_loopTrace_cons (p : Config.Params) (last : Option (U16 × U16)) {k : Nat} {bs : List Byte} {b : Byte}
    (hk : k ≤ 8) (hb : bs[k]? = some b) :
    (loopTrace p last bs).drop k = .rx b :: (loopTrace p last bs).drop (k + 1) := by
  have h : (loopTrace p last bs)[k]? = some (.rx b) := by
    rw [← List.getElem?_take_of_lt (show k < 9 by omega), take_loopTrace, List.getElem?_map,
      List.getElem?_take_of_lt (by omega), hb]
    rfl
  obtain ⟨hlt, h⟩ := List.getElem?_eq_some_iff.mp h
  rw [List.drop_eq_getElem_cons hlt, h]

/-- The write of index `w` is the next of the four from there on. -/
theorem drop_programEvents (p : Config.Params) (pri pw : U16) (w : BitVec 2) :
    (programEvents p pri pw).drop w.toNat =
      .wr (wrAddr p w) (img pri pw w) :: (programEvents p pri pw).drop (w.toNat + 1) := by
  obtain rfl | rfl | rfl | rfl := widx_cases w <;> rfl

/-! ### Each move keeps the refinement -/

/-- The suppression of a commit is that the pair is committed already (R148). -/
theorem Regs.suppressed_iff_committed (r : Regs) :
    r.suppressed = true ↔ r.committed = some (r.curPri, r.curPw) := by
  rw [Regs.suppressed_iff, Regs.committed]
  split_ifs with h <;> simp [h, eq_comm]

/-- A byte taken is the next event the loop owes (R130). -/
theorem Regs.remaining_takeByte {r : Regs} (p : Config.Params) (b : Byte) (bs : List Byte) (hf : r.fsm = .awaitFrame)
    (hcnt : r.cnt.toNat ≤ 8) : r.remaining p (b :: bs) = .rx b :: (r.takeByte b).remaining p bs := by
  have hbytes : r.buf.toBytes.take r.cnt.toNat ++ b :: bs =
      (r.buf.set r.cnt.toNat b).toBytes.take (r.cnt.toNat + 1) ++ bs := by
    rw [Frame.take_toBytes_set _ _ hcnt, List.append_assoc]
    rfl
  have hlen := Frame.length_take_toBytes r.buf hcnt
  have hremaining : r.remaining p (b :: bs) =
      .rx b :: (loopTrace p r.committed ((r.buf.set r.cnt.toNat b).toBytes.take (r.cnt.toNat + 1) ++ bs)).drop
        (r.cnt.toNat + 1) := by
    rw [← hbytes, ← drop_loopTrace_cons p r.committed hcnt (by simp [hlen])]
    simp only [Regs.remaining, hf]
  rw [hremaining, Regs.takeByte_eq]
  split_ifs with h8
  · rw [h8]
    rfl
  · have hsucc : (r.cnt + 1#4).toNat = r.cnt.toNat + 1 := by bv_omega
    simp only [Regs.remaining, hf, hsucc]
    rfl

/-- A response sent is the next event the loop owes (R133, R134). -/
theorem Regs.remaining_afterResponse {n : Nat} {r : Regs} (p : Config.Params) (bs : List Byte) (h : r.Inv n)
    (hf : r.fsm = .replyErr ∨ r.fsm = .replyOk) :
    r.remaining p bs = .tx r.ackR :: r.afterResponse.remaining p bs := by
  obtain hf | hf := hf
  · have hcnt : r.cnt = 0#4 := h.cnt_zero (by simp [hf])
    rw [Regs.afterResponse_of_replyErr hf]
    simp only [Regs.remaining, hf, hcnt]
    rfl
  · rw [Regs.afterResponse_of_replyOk hf]
    simp only [Regs.remaining, hf]
    rfl

/-- A word written is the next event the loop owes (R97, R98). -/
theorem Regs.remaining_afterWrite {n : Nat} {r : Regs} (p : Config.Params) (bs : List Byte) (h : r.Inv n)
    (hf : r.fsm = .coldStart ∨ r.fsm = .commitWrite) :
    r.remaining p bs = .wr (wrAddr p r.widx) (img r.curPri r.curPw r.widx) :: r.afterWrite.remaining p bs := by
  obtain hf | hf := hf
  · rw [Regs.afterWrite_of_coldStart hf]
    split_ifs with hw
    · simp only [Regs.remaining, hf, hw]
      rfl
    · have hsucc : (r.widx + 1#2).toNat = r.widx.toNat + 1 := by bv_omega
      simp only [Regs.remaining, hf, hsucc, drop_programEvents]
      rfl
  · have hcnt : r.cnt = 0#4 := h.cnt_zero (by simp [hf])
    rw [Regs.afterWrite_of_commitWrite hf]
    split_ifs with hw
    · simp only [Regs.remaining, hf, hw, hcnt]
      rfl
    · have hsucc : (r.widx + 1#2).toNat = r.widx.toNat + 1 := by bv_omega
      simp only [Regs.remaining, hf, hsucc, drop_programEvents]
      rfl

/-- A cycle without a transfer leaves what the loop owes. -/
theorem Silent.remaining_eq {s : State} {r : Regs} (hm : Silent s r) (h : s.Inv) (bs : List Byte) :
    s.regs.remaining s.cfg bs = r.remaining s.cfg bs := by
  have hcnt : s.regs.fsm ≠ .awaitFrame → s.regs.cnt = 0#4 := h.cnt_zero
  cases hm with
  | stall | linkSilent | fatal => rfl
  | linkFails hf => simp only [Regs.remaining, hf]; rfl
  | linkComesUp hf =>
    simp only [Regs.remaining, hf, hcnt (by simp [hf])]
    rfl
  | accept hf hv => simp only [Regs.remaining, hf, hv]; rfl
  | reject hf hv => simp only [Regs.remaining, hf, hv]; rfl
  | settleCounts hf => simp only [Regs.remaining, hf]; rfl
  | settleEnds hf => simp only [Regs.remaining, hf]; rfl
  | suppress hf hs =>
    have hlast := s.regs.suppressed_iff_committed.mp hs
    simp only [Regs.remaining, hf, Regs.commitEvents, if_pos hlast, hcnt (by simp [hf])]
    exact congrArg (loopTrace s.cfg · bs) hlast.symm
  | beginCommit hf hs =>
    have hlast : s.regs.committed ≠ some (s.regs.curPri, s.regs.curPw) :=
      mt s.regs.suppressed_iff_committed.mpr (by simp [hs])
    simp only [Regs.remaining, hf, Regs.commitEvents, if_neg hlast]
    rfl

/-- The bytes taken after an event: a byte more if it took one. -/
theorem State.bytesTaken_of_trace {s t : State} {e : Stamped} (h : t.trace = e :: s.trace) :
    t.bytesTaken = s.bytesTaken ++ e.event.rxByte?.toList := by
  rw [State.bytesTaken, State.events_of_trace h, List.filterMap_append]
  cases h : e.event.rxByte? <;> simp [State.bytesTaken, h]

/-- A transfer keeps the refinement if it is the next event that the loop owes. -/
theorem State.Refines.of_event {s t : State} {e : Stamped} (h : s.Refines) (hcfg : t.cfg = s.cfg)
    (htrace : t.trace = e :: s.trace)
    (howes : ∀ bs, s.regs.remaining s.cfg (e.event.rxByte?.toList ++ bs) = e.event :: t.regs.remaining s.cfg bs) :
    t.Refines := by
  intro bs
  rw [hcfg, State.bytesTaken_of_trace htrace, State.events_of_trace htrace, List.append_assoc, h, howes,
    List.append_assoc, List.singleton_append]

/-- Each move keeps the refinement. -/
theorem Move.keeps_refines {s t : State} (hm : Move s t) (hinv : s.Inv) (h : s.Refines) : t.Refines := by
  cases hm with
  | takeByte hfire =>
    obtain ⟨-, hf, -⟩ := s.fireRx_iff.mp hfire
    exact h.of_event rfl rfl fun bs => Regs.remaining_takeByte s.cfg _ bs hf hinv.cnt_le
  | sendByte hfire =>
    obtain ⟨-, hf, -⟩ := s.fireTx_iff.mp hfire
    exact h.of_event rfl rfl fun bs => Regs.remaining_afterResponse s.cfg bs hinv hf
  | writeWord hfire =>
    obtain ⟨-, hf, -⟩ := s.fireWr_iff.mp hfire
    exact h.of_event rfl rfl fun bs => Regs.remaining_afterWrite s.cfg bs hinv hf
  | silent hq =>
    intro bs
    exact (h bs).trans (congrArg (s.events ++ ·) (hq.remaining_eq hinv bs))

/-! ### Runs -/

/-- What every step outside reset keeps, a run without reset keeps, and on a legal configuration it ends in a state. -/
theorem run_keeps {I : State → Prop} (hI : ∀ s t : State, s.now.rst = false → step s = .next t → I s → I t)
    {n : Nat} {s : State} (hc : s.cfg.wf = true) (hr : s.noReset n) (h : I s) :
    ∃ t : State, Sys2Proof.core.run n s = .next t ∧ t.cfg = s.cfg ∧ I t := by
  induction n generalizing s with
  | zero => exact ⟨s, rfl, rfl, h⟩
  | succ n ih =>
    have hstep := step_arm hc hr.now
    obtain ⟨hinputs, -, hcfg⟩ := step_clock hstep
    obtain ⟨t, hrun, htcfg, ht⟩ := ih (by rw [hcfg, hc]) (hr.after hinputs) (hI _ _ hr.now hstep h)
    exact ⟨t, by rw [run_succ_of_step hstep, hrun], htcfg.trans hcfg, ht⟩

/-- The reset state owes the whole of R155's trace. -/
theorem refines_resetWith (p : Config.Params) (ins : List Config.Inputs) : (State.resetWith p ins).Refines :=
  fun _ => rfl

/-- A state that awaits a byte owes nothing for the bytes taken. -/
theorem Regs.remaining_nil_of_awaitFrame {r : Regs} (p : Config.Params) (hf : r.fsm = .awaitFrame)
    (hcnt : r.cnt.toNat ≤ 8) : r.remaining p [] = [] := by
  have hlen := Frame.length_take_toBytes r.buf hcnt
  have hdrop := drop_length_loopTrace p r.committed (bs := r.buf.toBytes.take r.cnt.toNat) (by omega)
  rw [hlen] at hdrop
  simpa only [Regs.remaining, hf, List.append_nil] using hdrop

/-- Settles O57: the refinement and I1 to I6 hold at reset and every step keeps them; with no byte to follow, R155's trace
is what has happened and what is still owed, which in AWAIT_FRAME is nothing. -/
theorem runsRefineTheSourceLoop : Obligations.RunsRefineTheSourceLoop := by
  unfold Obligations.RunsRefineTheSourceLoop
  intro p ins n hp hr
  have hkeeps : ∀ s t : State, s.now.rst = false → step s = .next t → s.Inv ∧ s.Refines → t.Inv ∧ t.Refines := by
    rintro s t hr hstep ⟨hinv, h⟩
    obtain ⟨-, ⟨hr', -⟩ | ⟨-, hm⟩⟩ := step_moves hstep
    · simp [hr] at hr'
    · exact ⟨registerInvariantIsKept s t hinv hstep, hm.keeps_refines hinv h⟩
  obtain ⟨t, hrun, hcfg, hinv, h⟩ :=
    run_keeps hkeeps hp hr ⟨registerInvariantHoldsAtReset p ins, refines_resetWith p ins⟩
  have htrace : blockTrace p t.bytesTaken = t.events ++ t.regs.remaining p [] := by
    simpa [hcfg, State.resetWith] using h []
  refine ⟨t, hrun, ⟨_, htrace.symm⟩, fun hf => ?_⟩
  rw [htrace, Regs.remaining_nil_of_awaitFrame p hf hinv.cnt_le, List.append_nil]

end Sys2Proof.Machine
end

section
/-! PROOFS, family 60_exceptions.md: the fatal error, which only reset leaves (R175, R153). -/

namespace Sys2Proof.Machine

/-- What the block holds and has shown: the registers, the bus and the events, of `t` as of `s`. -/
def State.Unchanged (s t : State) : Prop := t.regs = s.regs ∧ t.mem = s.mem ∧ t.trace = s.trace

/-- Outside reset, a step in FATAL holds (R175). -/
theorem eq_hold_of_step_fatal {s t : State} (hr : s.now.rst = false) (hf : s.regs.fsm = .fatal)
    (h : step s = .next t) : t = s.hold := by
  obtain ⟨-, ⟨hr', -⟩ | ⟨-, rfl⟩⟩ := step_cases h
  · simp [hr] at hr'
  · simp only [armOf, hf]

/-- Outside reset, a step from a state that holds what a FATAL state holds leaves it so. -/
theorem State.Unchanged.step_of_fatal {s t u : State} (hf : s.regs.fsm = .fatal) (hr : t.now.rst = false)
    (hstep : step t = .next u) (h : s.Unchanged t) : s.Unchanged u := by
  have htf : t.regs.fsm = .fatal := by rw [h.1, hf]
  rw [eq_hold_of_step_fatal hr htf hstep]
  exact h

/-- Settles O49: to hold what the FATAL state held is kept by every step outside reset, hence by a run without reset. -/
theorem fatalIsLeftOnlyByReset : Obligations.FatalIsLeftOnlyByReset := by
  unfold Obligations.FatalIsLeftOnlyByReset
  intro n s hc hf hr
  obtain ⟨t, hrun, -, hsame⟩ :=
    run_keeps (I := s.Unchanged) (fun _ _ => State.Unchanged.step_of_fatal hf) hc hr ⟨rfl, rfl, rfl⟩
  exact ⟨t, hrun, hsame⟩

end Sys2Proof.Machine
end

section
/-! PROOFS, family 70_reset_and_hazards.md: the reset edge (R200) and the gap after an acknowledgment (R206). -/

namespace Sys2Proof.Machine

/-- Settles O14: under reset a step is the reset edge, which loads `Regs.reset`, R42's values. -/
theorem resetEdgeLoadsTheResetValues : Obligations.ResetEdgeLoadsTheResetValues := by
  unfold Obligations.ResetEdgeLoadsTheResetValues
  intro s hc hr
  exact step_reset hc hr

/-- A response that fires is sent (R133, R134). -/
theorem step_of_fireTx {s : State} (hc : s.cfg.wf = true) (hfire : s.fireTx = true) :
    step s = .next (sendResponse s) := by
  obtain ⟨hr, hf, hrdy⟩ := s.fireTx_iff.mp hfire
  rw [step_of_reply hc hr hf, if_pos hrdy]

/-- From the beginning of the settle wait, its cycles and MAYBE_COMMIT's make no event and no write (R147, R148). -/
theorem run_settle_quiet {s : State} {n : Nat} (hc : s.cfg.wf = true) (hf : s.regs.fsm = .settle)
    (h0 : s.regs.settleCnt = 0#32) (hr : s.noReset n) (hn : n ≤ s.cfg.settleCycles + 1) :
    ∃ t : State, Sys2Proof.core.run n s = .next t ∧ t.mem = s.mem ∧ t.trace = s.trace := by
  obtain hlt | rfl | rfl : n < s.cfg.settleCycles ∨ n = s.cfg.settleCycles ∨ n = s.cfg.settleCycles + 1 := by omega
  · exact ⟨s.settling n, run_settling hc hf h0 hlt hr, rfl, rfl⟩
  · exact ⟨s.settled, run_settled hc hf h0 hr, rfl, rfl⟩
  · have hnow : s.settled.now.rst = false := (State.nextInputs.drop (n := 1) hr rfl).now
    have hstep := step_of_maybeCommit (s := s.settled) hc hnow rfl
    have hwait := run_settled hc hf h0 (hr.mono (Nat.le_succ _))
    exact ⟨_, (run_add_of_next hwait).trans (run_succ_of_step hstep), rfl, rfl⟩

/-- Settles O52: sending the acknowledgment begins the settle wait with the count at 0. -/
theorem settleGapHasNoEvent : Obligations.SettleGapHasNoEvent := by
  unfold Obligations.SettleGapHasNoEvent
  intro n s hc hf hfire hr hn
  have hregs : (sendResponse s).regs = { s.regs with settleCnt := 0#32, fsm := .settle } :=
    Regs.afterResponse_of_replyOk hf
  obtain ⟨t, hrun, hmem, htrace⟩ :=
    run_settle_quiet (s := sendResponse s) hc (by rw [hregs]) (by rw [hregs]) (hr.after rfl) hn
  exact ⟨t, (run_succ_of_step (step_of_fireTx hc hfire)).trans hrun, hmem, htrace⟩

end Sys2Proof.Machine
end
